-- ==== Sys2Proof/Word.lean ====
section
/-! DEFINITION. The word types of the block. -/

namespace Sys2Proof

/-- A 32-bit register or bus word (10_state R21, 00_scope R7 `BUS_WIDTH`). -/
abbrev Word := BitVec 32

/-- A field element as the Point Arithmetic Unit represents it: an opaque 256-bit word (00_scope R8). -/
abbrev Fe := BitVec 256

/-- A stored signed digit, `int8` in two's complement (10_state R29). -/
abbrev Digit := BitVec 8

end Sys2Proof
end

