-- ==== Sys2Proof/Config.lean ====
section
/-! DEFINITION. What the platform fixes: the point forms, the external Point Arithmetic Unit (PAU), the window's
address and the latencies. Everything the spec leaves OPEN is an opaque constant with no body. -/

namespace Sys2Proof

/-- The four coordinates of the extended form, in the order of the register map (00_scope R8, 30_encoding R83). -/
inductive Coord where
  | X | Y | Z | T
deriving DecidableEq, Repr

/-- Extended form (00_scope R8). -/
structure ExtPoint where
  X : Fe
  Y : Fe
  Z : Fe
  T : Fe
deriving DecidableEq, Repr, Inhabited

/-- Cached form (00_scope R8). -/
structure CachedPoint where
  YpX : Fe
  YmX : Fe
  Z   : Fe
  T2d : Fe
deriving DecidableEq, Repr, Inhabited

/-- Completed form: opaque to the block (00_scope R8). The value is a code the PAU alone reads.
DESIGN CHOICE, log 2. -/
structure ComplPoint where
  code : Nat
deriving DecidableEq, Repr, Inhabited

/-- Projective form: opaque to the block (00_scope R8). DESIGN CHOICE, log 2. -/
structure ProjPoint where
  code : Nat
deriving DecidableEq, Repr, Inhabited

/-- The Point Arithmetic Unit: total functions and a constant (00_scope R9). The ninth item of R9, `identityCached`,
is required to equal `e2c identityExt` and is therefore computed (`identityCached` in Machine/Operands.lean, log 4). -/
structure Pau where
  add         : ExtPoint → CachedPoint → ComplPoint
  dbl         : ProjPoint → ComplPoint
  c2e         : ComplPoint → ExtPoint
  c2p         : ComplPoint → ProjPoint
  e2c         : ExtPoint → CachedPoint
  feNeg       : Fe → Fe
  identityExt : ExtPoint
deriving Inhabited

/-- The PAU of this machine: OPEN (00_scope R9, R10; 93 U5). No body: no proof can see what it computes. Log 3. -/
opaque Config.pau : Pau

/-- `BASE_ADDR / 0x200`: the platform's choice (20_memory R61, 93 U21). -/
opaque Config.windowIndex : Nat

/-- `BASE_ADDR`, a multiple of `WINDOW_BYTES = 0x200` (20_memory R61). -/
def Config.baseAddr : Nat := 0x200 * Config.windowIndex

/-- The uop kinds that have a latency of their own in the timing sum (70_reset_and_hazards R250). -/
inductive LatKind where
  | enc | e2c | add | c2e | c2p | dbl | sel
deriving DecidableEq, Repr

/-- `LAT(kind)`, OPEN (00_scope R7, 70_reset_and_hazards R250). It takes no operand values. Log 22. -/
opaque Config.lat : LatKind → Nat

/-- `T_fixed`, OPEN (70_reset_and_hazards R250). Log 22. -/
opaque Config.tFixed : Nat

end Sys2Proof
end

