-- ==== Sys2Proof/Syntax.lean ====
section
/-! DEFINITION. The instructions: one constructor per row of spec/opcode_table.json (32 rows, log 20). -/

namespace Sys2Proof

/-- Host transactions (30_encoding R83) and micro-operations (30_encoding R87). A row that covers several registers
carries the register's number; a reserved range carries the word's number within the range. -/
inductive Instr where
  -- host writes
  | wrCtrlStart (ignored : BitVec 31)
  | wrCtrlNop (ignored : BitVec 31)
  | wrStatus (data : Word)
  | wrScalar (w : BitVec 3) (data : Word)
  | wrBase (c : Coord) (w : BitVec 3) (data : Word)
  | wrRes (c : Coord) (w : BitVec 3) (data : Word)
  | wrRsvd008 (w : BitVec 1) (data : Word)
  | wrRsvd010 (w : BitVec 2) (data : Word)
  | wrRsvd020 (w : BitVec 3) (data : Word)
  | wrRsvd060 (w : BitVec 3) (data : Word)
  | wrRsvd180 (w : BitVec 5) (data : Word)
  -- host reads
  | rdCtrl
  | rdStatus
  | rdScalar (w : BitVec 3)
  | rdBase (c : Coord) (w : BitVec 3)
  | rdRes (c : Coord) (w : BitVec 3)
  | rdRsvd008 (w : BitVec 1)
  | rdRsvd010 (w : BitVec 2)
  | rdRsvd020 (w : BitVec 3)
  | rdRsvd060 (w : BitVec 3)
  | rdRsvd180 (w : BitVec 5)
  -- micro-operations
  | enc
  | tcache
  | tadd (k : BitVec 6)
  | c2e
  | te2c (k : BitVec 6)
  | sel (i : BitVec 6)
  | addi
  | c2p (j : BitVec 2)
  | dbl (j : BitVec 2)
  | add (i : BitVec 6)
  | fin
deriving DecidableEq, Repr

end Sys2Proof
end

