-- ==== Sys2Proof/WellFormed.lean ====
section
/-! DEFINITION. Operand ranges of an instruction that its field widths do not already say. -/

namespace Sys2Proof

/-- Operand ranges of 30_encoding R86: a table index is 1 to 7, the digit index of ADD is 0 to 62 (that of SEL,
0 to 63, and the doubling number, 0 to 3, fill their fields). A host transaction has no illegal value (R85). -/
def Instr.wf : Instr → Bool
  | .tadd k => decide (1 ≤ k.toNat ∧ k.toNat ≤ 7)
  | .te2c k => decide (1 ≤ k.toNat ∧ k.toNat ≤ 7)
  | .add i => decide (i.toNat ≤ 62)
  | .wrCtrlStart _ | .wrCtrlNop _ | .wrStatus _ | .wrScalar _ _ | .wrBase _ _ _ | .wrRes _ _ _ => true
  | .wrRsvd008 _ _ | .wrRsvd010 _ _ | .wrRsvd020 _ _ | .wrRsvd060 _ _ | .wrRsvd180 _ _ => true
  | .rdCtrl | .rdStatus | .rdScalar _ | .rdBase _ _ | .rdRes _ _ => true
  | .rdRsvd008 _ | .rdRsvd010 _ | .rdRsvd020 _ | .rdRsvd060 _ | .rdRsvd180 _ => true
  | .enc | .tcache | .c2e | .sel _ | .addi | .c2p _ | .dbl _ | .fin => true

end Sys2Proof
end

