-- ==== Sys2Proof/Decode.lean ====
section
/-! DEFINITION. The encodings (30_encoding): bus accesses, the 42-bit transaction word HT, the 12-bit uop word, their
decoders, and the encoder. -/

namespace Sys2Proof

/-! ## Bus accesses -/

/-- The direction of a host access; only a write carries data and byte enables (30_encoding R80, R82; log 10). -/
inductive BusOp where
  | read
  | write (byteEnables : BitVec 4) (data : Word)
deriving DecidableEq, Repr

/-- One host access at the block's port: its window offset (20_memory R61), its size in bits, its direction. -/
structure Access where
  off      : BitVec 9
  sizeBits : Nat
  op       : BusOp
deriving DecidableEq, Repr

/-! ## Words and what a decoder answers -/

/-- The two formats of the opcode table: HOST (30_encoding R81) and UOP (30_encoding R86). -/
inductive Encoded where
  | host (ht : BitVec 42)
  | uop (w : BitVec 12)
deriving DecidableEq, Repr

/-- Why an access or a word names no instruction. -/
inductive Reject where
  /-- The access is not 32 bits wide (30_encoding R82 step 1). -/
  | size
  /-- A write whose byte enables are not all set (30_encoding R82 step 1). -/
  | byteEnables
  /-- `OFF[1:0] ≠ 0` (30_encoding R82 step 2). -/
  | misaligned
  /-- No row names the offset; no aligned offset is rejected so (30_encoding R82, "the decoder is total"). -/
  | noRow
  /-- uop code 0x0 or 0xC to 0xF (30_encoding R88). -/
  | reservedOp
  /-- A uop word with a nonzero IDX or J field where R86 says 0 (30_encoding R88). -/
  | reservedField
deriving DecidableEq, Repr

/-- A decoder's answer. -/
inductive Decoded where
  | ok (i : Instr)
  | reject (why : Reject)
deriving DecidableEq, Repr

/-- The instruction a decoder's answer holds. -/
def Decoded.instr? : Decoded → Option Instr
  | .ok i => some i
  | .reject _ => none

/-! ## Host transactions -/

/-- What an aligned window offset names (30_encoding R83): a register, or a word of a reserved range. -/
inductive Target where
  | ctrl
  | status
  | scalar (w : BitVec 3)
  | base (c : Coord) (w : BitVec 3)
  | res (c : Coord) (w : BitVec 3)
  | rsvd008 (w : BitVec 1)
  | rsvd010 (w : BitVec 2)
  | rsvd020 (w : BitVec 3)
  | rsvd060 (w : BitVec 3)
  | rsvd180 (w : BitVec 5)
deriving DecidableEq, Repr

/-- Coordinate number `OFF[6:5]`: 0 = X, 1 = Y, 2 = Z, 3 = T (30_encoding R83). -/
def Coord.ofBits (b : BitVec 2) : Coord :=
  if b = 0 then .X else if b = 1 then .Y else if b = 2 then .Z else .T

/-- The coordinate's number in `OFF[6:5]` (30_encoding R83). -/
def Coord.bits : Coord → BitVec 2
  | .X => 0
  | .Y => 1
  | .Z => 2
  | .T => 3

/-- One match and mask pair of 30_encoding R83 on the offset. -/
def offMatches (off mtch mask : BitVec 9) : Bool :=
  off &&& mask == mtch

/-- The row of 30_encoding R83 that an aligned offset falls in, with the word number `OFF[4:2]` and the coordinate
`OFF[6:5]` of its register. -/
def targetOf (off : BitVec 9) : Option Target :=
  let w := off.extractLsb' 2 3
  let c := Coord.ofBits (off.extractLsb' 5 2)
  if offMatches off 0x000 0x1FF then some .ctrl
  else if offMatches off 0x004 0x1FF then some .status
  else if offMatches off 0x040 0x1E3 then some (.scalar w)
  else if offMatches off 0x080 0x183 then some (.base c w)
  else if offMatches off 0x100 0x183 then some (.res c w)
  else if offMatches off 0x008 0x1F8 then some (.rsvd008 (off.extractLsb' 2 1))
  else if offMatches off 0x010 0x1F0 then some (.rsvd010 (off.extractLsb' 2 2))
  else if offMatches off 0x020 0x1E0 then some (.rsvd020 w)
  else if offMatches off 0x060 0x1E0 then some (.rsvd060 w)
  else if offMatches off 0x180 0x180 then some (.rsvd180 (off.extractLsb' 2 5))
  else none

/-- A write transaction to a target (30_encoding R83); a CTRL write is told apart by DATA[0] (R85). -/
def writeInstr (t : Target) (data : Word) : Instr :=
  match t with
  | .ctrl => if data.getLsbD 0 then .wrCtrlStart (data.extractLsb' 1 31) else .wrCtrlNop (data.extractLsb' 1 31)
  | .status => .wrStatus data
  | .scalar w => .wrScalar w data
  | .base c w => .wrBase c w data
  | .res c w => .wrRes c w data
  | .rsvd008 w => .wrRsvd008 w data
  | .rsvd010 w => .wrRsvd010 w data
  | .rsvd020 w => .wrRsvd020 w data
  | .rsvd060 w => .wrRsvd060 w data
  | .rsvd180 w => .wrRsvd180 w data

/-- A read transaction of a target (30_encoding R83). -/
def readInstr : Target → Instr
  | .ctrl => .rdCtrl
  | .status => .rdStatus
  | .scalar w => .rdScalar w
  | .base c w => .rdBase c w
  | .res c w => .rdRes c w
  | .rsvd008 w => .rdRsvd008 w
  | .rsvd010 w => .rdRsvd010 w
  | .rsvd020 w => .rdRsvd020 w
  | .rsvd060 w => .rdRsvd060 w
  | .rsvd180 w => .rdRsvd180 w

/-- Steps 2 to 4 of 30_encoding R82 on the transaction word `{WE, OFF, DATA}` of R81. The alignment check comes before
the rows (log 8); DATA of a read is not looked at (log 9). -/
def decodeHost (ht : BitVec 42) : Decoded :=
  let off := ht.extractLsb' 32 9
  if off.extractLsb' 0 2 ≠ 0 then .reject .misaligned
  else
    match targetOf off with
    | none => .reject .noRow
    | some t => .ok (if ht.getLsbD 41 then writeInstr t (ht.extractLsb' 0 32) else readInstr t)

/-- The transaction word `HT = {WE, OFF, DATA}` (30_encoding R81). -/
def transactionWord (we : Bool) (off : BitVec 9) (data : Word) : BitVec 42 :=
  BitVec.ofBool we ++ off ++ data

/-- The transaction word of an access that passes step 1 of 30_encoding R82; `DATA = 0` for a read (R81). -/
def Access.word (a : Access) : BitVec 42 :=
  match a.op with
  | .read => transactionWord false a.off 0
  | .write _ data => transactionWord true a.off data

/-- 30_encoding R82, all of it: the size, then a write's byte enables, then the transaction word. -/
def decodeAccess (a : Access) : Decoded :=
  if a.sizeBits ≠ 32 then .reject .size
  else
    match a.op with
    | .read => decodeHost a.word
    | .write be _ => if be ≠ 0xF then .reject .byteEnables else decodeHost a.word

/-! ## Micro-operations -/

/-- The uop word `{J, IDX, OP}` (30_encoding R86). -/
def uopWord (j : BitVec 2) (idx : BitVec 6) (op : BitVec 4) : BitVec 12 :=
  j ++ idx ++ op

/-- The uop codes of 30_encoding R87. A field that R86 says is 0 must be 0 (R88). An operand outside its range of R86
is decoded as the opcode table's mask says, and refused by `Instr.wf` (log 11). -/
def decodeUop (w : BitVec 12) : Decoded :=
  let idx := w.extractLsb' 4 6
  let j := w.extractLsb' 10 2
  let plain (i : Instr) : Decoded := if idx = 0 ∧ j = 0 then .ok i else .reject .reservedField
  let indexed (i : Instr) : Decoded := if j = 0 then .ok i else .reject .reservedField
  let doubling (i : Instr) : Decoded := if idx = 0 then .ok i else .reject .reservedField
  match (w.extractLsb' 0 4).toNat with
  | 0x1 => plain .enc
  | 0x2 => plain .tcache
  | 0x3 => indexed (.tadd idx)
  | 0x4 => plain .c2e
  | 0x5 => indexed (.te2c idx)
  | 0x6 => indexed (.sel idx)
  | 0x7 => plain .addi
  | 0x8 => doubling (.c2p j)
  | 0x9 => doubling (.dbl j)
  | 0xA => indexed (.add idx)
  | 0xB => plain .fin
  | _ => .reject .reservedOp

/-- Both formats. -/
def decode : Encoded → Decoded
  | .host ht => decodeHost ht
  | .uop w => decodeUop w

/-! ## The encoder -/

/-- The offset of a target (10_state R21). -/
def Target.offset : Target → BitVec 9
  | .ctrl => 0x000
  | .status => 0x004
  | .scalar w => (0b0010#4 ++ w ++ 0#2 : BitVec (4 + 3 + 2))
  | .base c w => (0b01#2 ++ c.bits ++ w ++ 0#2 : BitVec (2 + 2 + 3 + 2))
  | .res c w => (0b10#2 ++ c.bits ++ w ++ 0#2 : BitVec (2 + 2 + 3 + 2))
  | .rsvd008 w => (0b000001#6 ++ w ++ 0#2 : BitVec (6 + 1 + 2))
  | .rsvd010 w => (0b00001#5 ++ w ++ 0#2 : BitVec (5 + 2 + 2))
  | .rsvd020 w => (0b0001#4 ++ w ++ 0#2 : BitVec (4 + 3 + 2))
  | .rsvd060 w => (0b0011#4 ++ w ++ 0#2 : BitVec (4 + 3 + 2))
  | .rsvd180 w => (0b11#2 ++ w ++ 0#2 : BitVec (2 + 5 + 2))

/-- The word of a write transaction to a target. -/
def encodeWrite (t : Target) (data : Word) : Encoded :=
  .host (transactionWord true t.offset data)

/-- The word of a read transaction of a target; its DATA is 0 (30_encoding R81). -/
def encodeRead (t : Target) : Encoded :=
  .host (transactionWord false t.offset 0)

/-- The word of an instruction (30_encoding R81, R83, R86, R87). -/
def encode : Instr → Encoded
  | .wrCtrlStart ignored => encodeWrite .ctrl (ignored ++ 1#1)
  | .wrCtrlNop ignored => encodeWrite .ctrl (ignored ++ 0#1)
  | .wrStatus data => encodeWrite .status data
  | .wrScalar w data => encodeWrite (.scalar w) data
  | .wrBase c w data => encodeWrite (.base c w) data
  | .wrRes c w data => encodeWrite (.res c w) data
  | .wrRsvd008 w data => encodeWrite (.rsvd008 w) data
  | .wrRsvd010 w data => encodeWrite (.rsvd010 w) data
  | .wrRsvd020 w data => encodeWrite (.rsvd020 w) data
  | .wrRsvd060 w data => encodeWrite (.rsvd060 w) data
  | .wrRsvd180 w data => encodeWrite (.rsvd180 w) data
  | .rdCtrl => encodeRead .ctrl
  | .rdStatus => encodeRead .status
  | .rdScalar w => encodeRead (.scalar w)
  | .rdBase c w => encodeRead (.base c w)
  | .rdRes c w => encodeRead (.res c w)
  | .rdRsvd008 w => encodeRead (.rsvd008 w)
  | .rdRsvd010 w => encodeRead (.rsvd010 w)
  | .rdRsvd020 w => encodeRead (.rsvd020 w)
  | .rdRsvd060 w => encodeRead (.rsvd060 w)
  | .rdRsvd180 w => encodeRead (.rsvd180 w)
  | .enc => .uop (uopWord 0 0 0x1)
  | .tcache => .uop (uopWord 0 0 0x2)
  | .tadd k => .uop (uopWord 0 k 0x3)
  | .c2e => .uop (uopWord 0 0 0x4)
  | .te2c k => .uop (uopWord 0 k 0x5)
  | .sel i => .uop (uopWord 0 i 0x6)
  | .addi => .uop (uopWord 0 0 0x7)
  | .c2p j => .uop (uopWord j 0 0x8)
  | .dbl j => .uop (uopWord j 0 0x9)
  | .add i => .uop (uopWord 0 i 0xA)
  | .fin => .uop (uopWord 0 0 0xB)

/-! ## The opcode table, row by row -/

/-- The formats of the opcode table. -/
inductive Format where
  | host | uop
deriving DecidableEq, Repr

/-- One row of spec/opcode_table.json: its format, match and mask. -/
structure TableRow where
  format : Format
  mtch   : Nat
  mask   : Nat
deriving DecidableEq, Repr

/-- The row of spec/opcode_table.json each instruction belongs to. -/
def Instr.row : Instr → TableRow
  | .wrCtrlStart _ => ⟨.host, 0x20000000001, 0x3FF00000001⟩
  | .wrCtrlNop _ => ⟨.host, 0x20000000000, 0x3FF00000001⟩
  | .wrStatus _ => ⟨.host, 0x20400000000, 0x3FF00000000⟩
  | .wrScalar _ _ => ⟨.host, 0x24000000000, 0x3E300000000⟩
  | .wrBase _ _ _ => ⟨.host, 0x28000000000, 0x38300000000⟩
  | .wrRes _ _ _ => ⟨.host, 0x30000000000, 0x38300000000⟩
  | .wrRsvd008 _ _ => ⟨.host, 0x20800000000, 0x3F800000000⟩
  | .wrRsvd010 _ _ => ⟨.host, 0x21000000000, 0x3F000000000⟩
  | .wrRsvd020 _ _ => ⟨.host, 0x22000000000, 0x3E000000000⟩
  | .wrRsvd060 _ _ => ⟨.host, 0x26000000000, 0x3E000000000⟩
  | .wrRsvd180 _ _ => ⟨.host, 0x38000000000, 0x38000000000⟩
  | .rdCtrl => ⟨.host, 0x00000000000, 0x3FF00000000⟩
  | .rdStatus => ⟨.host, 0x00400000000, 0x3FF00000000⟩
  | .rdScalar _ => ⟨.host, 0x04000000000, 0x3E300000000⟩
  | .rdBase _ _ => ⟨.host, 0x08000000000, 0x38300000000⟩
  | .rdRes _ _ => ⟨.host, 0x10000000000, 0x38300000000⟩
  | .rdRsvd008 _ => ⟨.host, 0x00800000000, 0x3F800000000⟩
  | .rdRsvd010 _ => ⟨.host, 0x01000000000, 0x3F000000000⟩
  | .rdRsvd020 _ => ⟨.host, 0x02000000000, 0x3E000000000⟩
  | .rdRsvd060 _ => ⟨.host, 0x06000000000, 0x3E000000000⟩
  | .rdRsvd180 _ => ⟨.host, 0x18000000000, 0x38000000000⟩
  | .enc => ⟨.uop, 0x001, 0xFFF⟩
  | .tcache => ⟨.uop, 0x002, 0xFFF⟩
  | .tadd _ => ⟨.uop, 0x003, 0xC0F⟩
  | .c2e => ⟨.uop, 0x004, 0xFFF⟩
  | .te2c _ => ⟨.uop, 0x005, 0xC0F⟩
  | .sel _ => ⟨.uop, 0x006, 0xC0F⟩
  | .addi => ⟨.uop, 0x007, 0xFFF⟩
  | .c2p _ => ⟨.uop, 0x008, 0x3FF⟩
  | .dbl _ => ⟨.uop, 0x009, 0x3FF⟩
  | .add _ => ⟨.uop, 0x00A, 0xC0F⟩
  | .fin => ⟨.uop, 0x00B, 0xFFF⟩

/-- A word matches a row: the same format, and the bits under the mask are those of the row. -/
def TableRow.matchesWord (r : TableRow) : Encoded → Bool
  | .host ht => r.format == .host && ht &&& BitVec.ofNat 42 r.mask == BitVec.ofNat 42 r.mtch
  | .uop w => r.format == .uop && w &&& BitVec.ofNat 12 r.mask == BitVec.ofNat 12 r.mtch

/-! ## The host's numbering of the opcode table -/

/-- A word of the opcode table by its width: up to 16 bits it is a uop word (12 bits), above that a transaction word
(42 bits). A word with a bit above its format's width is none. -/
def tableWord? (nbits w : Nat) : Option Encoded :=
  if nbits ≤ 16 then
    if w < 2 ^ 12 then some (.uop (BitVec.ofNat 12 w)) else none
  else
    if w < 2 ^ 42 then some (.host (BitVec.ofNat 42 w)) else none

/-- The instruction the decoder reads from a word of the opcode table. -/
def decodeTableWord (nbits w : Nat) : Option Instr :=
  (tableWord? nbits w).bind fun e => (decode e).instr?

end Sys2Proof
end

