-- ==== Sys2Proof/Machine/State.lean ====
section
/-! DEFINITION. The state of one block, the observation trace, the inputs to come, and the reasons a step can stop. -/

namespace Sys2Proof.Machine

/-! ## The observation trace (45_sequencer R183) -/

/-- The internal registers a uop can read, as the trace names them (45_sequencer R183). -/
inductive IReg where
  | snapS
  | snapA
  | E (i : BitVec 6)
  | TBL (k : Fin 8)
  | R
  | S
  | H
  | C
deriving DecidableEq, Repr

/-- The kinds of PAU request (45_sequencer R183). -/
inductive PauReq where
  | add | dbl | c2e | c2p | e2c | feNeg
deriving DecidableEq, Repr

/-- One trace event: the uop word, the internal registers read in order, the PAU requests in order; names and kinds,
never values (45_sequencer R183). -/
structure Event where
  word  : BitVec 12
  reads : List IReg
  pau   : List PauReq
deriving DecidableEq, Repr

/-! ## The host side -/

/-- What the bus answers to a host access (46_host_interface R200, 60_exceptions R221; log 6). -/
inductive Response where
  /-- A read completed with this word (R200). -/
  | readData (data : Word)
  /-- A write completed, stored or ignored (R201 to R208; log 21). -/
  | writeDone
  /-- The access at this window offset completed with the bus's error response and no data (R221). -/
  | busError (off : BitVec 9)
deriving DecidableEq, Repr

/-- One turn of one agent (00_scope R14; log 5). -/
inductive Turn where
  /-- The host's next access takes effect. -/
  | host (a : Access)
  /-- The sequencer is scheduled; it takes a step if it is running. -/
  | sequencer
  /-- The reset input is asserted; a host access in the same step is not accepted (70_reset R240; log 16). -/
  | reset (lost : Option Access)
deriving DecidableEq, Repr

/-! ## The state -/

/-- STATUS (10_state R23). -/
structure Status where
  busy    : Bool
  done    : Bool
  err     : Bool
  errcode : BitVec 4
deriving DecidableEq, Repr

/-- The complete state of one block (10_state R42), then the trace and the host side. Field names are the spec's. -/
structure State where
  /-- STATUS (R23). -/
  status   : Status
  /-- `{SCALAR7, ..., SCALAR0}` (R24). -/
  scalar   : BitVec 256
  /-- BASE_X, BASE_Y, BASE_Z, BASE_T (R25). -/
  base     : ExtPoint
  /-- RES_X, RES_Y, RES_Z, RES_T (R26). -/
  result   : ExtPoint
  /-- SNAP_S, the scalar snapshot (R27). -/
  snapS    : BitVec 256
  /-- SNAP_A, the base point snapshot (R28). -/
  snapA    : ExtPoint
  /-- The digit file (R29). -/
  E        : Vector Digit 64
  /-- The table of cached multiples (R30). -/
  TBL      : Vector CachedPoint 8
  /-- The point accumulator (R31). -/
  R        : ComplPoint
  /-- The projective temporary (R32). -/
  S        : ProjPoint
  /-- The extended temporary (R33). -/
  H        : ExtPoint
  /-- The selector output (R34). -/
  C        : CachedPoint
  /-- The index of the next uop, 10 bits wide in hardware (R40; log 12). -/
  upc      : BitVec 10
  /-- The observation trace, oldest first; not hardware (45_sequencer R183, R42). -/
  trace    : List Event
  /-- The answer to the last host access; the model's own field (log 6). -/
  response : Option Response
  /-- The turns to come, oldest first; the model's own field (log 5). -/
  turns    : List Turn
deriving DecidableEq, Repr

/-! ## Reset (10_state R41, 70_reset R240) -/

/-- STATUS = 0x00000000 (10_state R41). -/
def Status.reset : Status := ⟨false, false, false, 0⟩

/-- Four zero words (10_state R41). -/
def zeroExt : ExtPoint := ⟨0, 0, 0, 0⟩

/-- Four zero words: the value of a cached register at reset (DESIGN CHOICE, log 1). -/
def zeroCached : CachedPoint := ⟨0, 0, 0, 0⟩

/-- The state after reset (10_state R41). STATUS, SCALAR, BASE and RES are 0 as the spec says; the internal registers,
which the spec leaves unspecified, are 0 by DESIGN CHOICE (log 1). No turn is pending and nothing has been observed. -/
def State.reset : State where
  status   := Status.reset
  scalar   := 0
  base     := zeroExt
  result   := zeroExt
  snapS    := 0
  snapA    := zeroExt
  E        := Vector.replicate 64 0
  TBL      := Vector.replicate 8 zeroCached
  R        := ⟨0⟩
  S        := ⟨0⟩
  H        := zeroExt
  C        := zeroCached
  upc      := 0
  trace    := []
  response := none
  turns    := []

/-! ## Why a step can stop -/

/-- Faults. None is reachable from reset: each stands for a state or a uop the spec says never occurs. All are safe:
the model stops where the spec gives no behaviour. -/
inductive Fault where
  /-- A uop word that the schedule never produces: a reserved code or field, or an operand out of its range
  (93 U10, 30_encoding R86, R88; log 11). Raised by the sequencer and by the uops with a range. Safe. -/
  | reservedUop (w : BitVec 12)
  /-- A running sequencer whose position is past the schedule (10_state R40; log 12). Raised by the sequencer. Safe. -/
  | upcOutOfRange (upc : BitVec 10)
  /-- An ERRCODE of 2 to 15, which the block never produces (93 U9; log 13). Raised by `step`. Safe. -/
  | reservedErrcode (code : BitVec 4)
deriving DecidableEq, Repr

/-- Refusals. No meaning refuses. -/
inductive Refusal where
  /-- The instruction has no meaning yet; raised by `exec`'s refused arms only (there is none). Safe. -/
  | notModelled (mnemonic : String)
deriving DecidableEq, Repr

/-- The outcome of a step of this machine. -/
abbrev Outcome := Host.Outcome State Fault Refusal

end Sys2Proof.Machine
end

