-- ==== Sys2Proof/Machine/Flags.lean ====
section
/-! DEFINITION. STATUS: how it is read, and every rule that sets or clears a flag (10_state R23, R37). -/

namespace Sys2Proof.Machine

/-- STATUS as it is read: `zext_32({ERRCODE, 0b0, ERR, DONE, BUSY})` (46_host_interface R200). -/
def statusWord (st : Status) : Word :=
  (st.errcode ++ 0#1 ++ BitVec.ofBool st.err ++ BitVec.ofBool st.done ++ BitVec.ofBool st.busy :
    BitVec (4 + 1 + 1 + 1 + 1)).setWidth 32

/-- A START the block acts on first clears DONE, ERR and ERRCODE (46_host_interface R204). -/
def clearForStart (st : Status) : Status :=
  { st with done := false, err := false, errcode := 0 }

/-- An accepted START sets BUSY (46_host_interface R205). -/
def flagsOnAccept (st : Status) : Status :=
  { st with busy := true }

/-- `raise ScalarRange()` sets ERR, ERRCODE = 1 and DONE (46_host_interface R206). -/
def flagsOnScalarRange (st : Status) : Status :=
  { st with err := true, errcode := 1, done := true }

/-- FIN clears BUSY and sets DONE (44_evaluator R169). -/
def flagsOnFin (st : Status) : Status :=
  { st with busy := false, done := true }

/-- A STATUS write: bit 1 clears DONE, bit 2 clears ERR and ERRCODE, every other bit is ignored
(46_host_interface R208). This is also how an error indication is cleared (60_exceptions R227). -/
def writeStatus (st : Status) (v : Word) : Status :=
  let st := if v.getLsbD 1 then { st with done := false } else st
  if v.getLsbD 2 then { st with err := false, errcode := 0 } else st

end Sys2Proof.Machine
end

