-- ==== Sys2Proof/Machine/Operands.lean ====
section
/-! DEFINITION. Operand assembly (30_encoding R84): 32-bit words of the 256-bit registers, coordinates, scalar bytes and
nibbles, the window's addresses, and the values built from the PAU's constants. -/

namespace Sys2Proof.Machine

/-- Word `w` of a 256-bit register: bits `32w+31 : 32w` (10_state R24, R25). -/
def getWord (v : BitVec 256) (w : BitVec 3) : Word :=
  v.extractLsb' (32 * w.toNat) 32

/-- Word `w` of a 256-bit register replaced by `d`, the other words kept (10_state R24, R25). -/
def setWord (v : BitVec 256) (w : BitVec 3) (d : Word) : BitVec 256 :=
  (v &&& ~~~((BitVec.allOnes 32).setWidth 256 <<< (32 * w.toNat))) ||| (d.setWidth 256 <<< (32 * w.toNat))

/-- One coordinate of an extended point. -/
def getCoord (p : ExtPoint) : Coord → Fe
  | .X => p.X
  | .Y => p.Y
  | .Z => p.Z
  | .T => p.T

/-- An extended point with one coordinate replaced. -/
def setCoord (p : ExtPoint) (c : Coord) (v : Fe) : ExtPoint :=
  match c with
  | .X => { p with X := v }
  | .Y => { p with Y := v }
  | .Z => { p with Z := v }
  | .T => { p with T := v }

/-- Word `w` of coordinate `c` of a point register (10_state R25, R26). -/
def getPointWord (p : ExtPoint) (c : Coord) (w : BitVec 3) : Word :=
  getWord (getCoord p c) w

/-- Word `w` of coordinate `c` of a point register replaced by `d` (10_state R25). -/
def setPointWord (p : ExtPoint) (c : Coord) (w : BitVec 3) (d : Word) : ExtPoint :=
  setCoord p c (setWord (getCoord p c) w d)

/-- Scalar byte `s[k] = a[8k+7 : 8k]` (00_scope R11, 10_state R27). -/
def scalarByte (a : BitVec 256) (k : Nat) : BitVec 8 :=
  a.extractLsb' (8 * k) 8

/-- Digit `i` before the carry pass: the low nibble of byte `i/2` for even `i`, the high nibble for odd `i`
(41_digit_encoder R101, R102). -/
def nibble (a : BitVec 256) (i : Nat) : Int :=
  let byte := scalarByte a (i / 2)
  if i % 2 = 0 then ((byte.extractLsb' 0 4).toNat : Int) else ((byte.extractLsb' 4 4).toNat : Int)

/-- The index of a table entry. Every use has `n ≤ 7`. -/
def tblIndex (n : Nat) : Fin 8 := Fin.ofNat 8 n

/-- The window offset of a byte address, where the window holds the address (20_memory R60, R61; log 23). -/
def windowOffset (addr : Nat) : Option (BitVec 9) :=
  if Config.baseAddr ≤ addr ∧ addr < Config.baseAddr + 0x200 then some (BitVec.ofNat 9 (addr - Config.baseAddr))
  else none

/-- `identityCached`, required to equal `e2c identityExt` (00_scope R9, 92 D18; log 4). -/
def identityCached (P : Pau) : CachedPoint :=
  P.e2c P.identityExt

end Sys2Proof.Machine
end

