-- ==== Sys2Proof/Machine/Ops.lean ====
section
/-! DEFINITION. The named operations every meaning is built from: the bus's answers, raising an error and clearing it,
START, reset, and the register reads, PAU requests and register writes of a uop in progress. -/

namespace Sys2Proof.Machine

/-! ## Bus answers -/

/-- The current host access gets this answer. -/
def respond (r : Response) (s : State) : State :=
  { s with response := some r }

/-! ## Errors (60_exceptions R220): the one shared operation that raises them -/

/-- The complete list of error causes (60_exceptions R220). -/
inductive ErrorCause where
  | scalarRange
  | busError (off : BitVec 9)
deriving DecidableEq, Repr

/-- Raising an error. ScalarRange writes ERR, ERRCODE and DONE and nothing else (46_host_interface R206,
60_exceptions R226). BusError ends the access with the error response and changes no register (60_exceptions R221;
log 7). Nothing is saved, no mode changes and no handler is entered (60_exceptions R226). -/
def raiseError (e : ErrorCause) (s : State) : State :=
  match e with
  | .scalarRange => { s with status := flagsOnScalarRange s.status }
  | .busError off => respond (.busError off) s

/-- Clearing the error indication by a STATUS write (60_exceptions R227, 46_host_interface R208): the nearest thing the
block has to a return from an error. -/
def clearByStatusWrite (v : Word) (s : State) : State :=
  { s with status := writeStatus s.status v }

/-! ## START (46_host_interface R204 to R207) -/

/-- The accept of 46_host_interface R205: snapshot SCALAR and BASE, set BUSY, start at uop 0. -/
def accept (s : State) : State :=
  { s with snapS := s.scalar, snapA := s.base, status := flagsOnAccept s.status, upc := 0 }

/-- START (46_host_interface R204): ignored while busy (R207); otherwise the flags are cleared and the entry check on
SCALAR7[31] decides between R205 and R206. -/
def start (s : State) : State :=
  if s.status.busy then s
  else
    let s := { s with status := clearForStart s.status }
    if (getWord s.scalar 7).getLsbD 31 then raiseError .scalarRange s else accept s

/-! ## Reset -/

/-- The reset input (70_reset R240, R241): every register takes its reset value and any operation is abandoned. The
trace keeps the events so far, with no event of its own (95 T40), and the turns to come stay (log 16). -/
def resetInput (s : State) : State :=
  { State.reset with trace := s.trace, turns := s.turns }

/-! ## A uop in progress (45_sequencer R182, R183)

Every read of an internal register and every PAU request of a uop goes through one of these operations, which note it;
the uop's last operation emits the event with what was noted. -/

/-- A uop in progress: the state so far, and what has been read and requested. -/
structure Act where
  st    : State
  reads : List IReg
  pau   : List PauReq

/-- A uop begins. -/
def Act.start (s : State) : Act := ⟨s, [], []⟩

/-- Note one register read. -/
def Act.noteRead (a : Act) (r : IReg) : Act :=
  { a with reads := a.reads ++ [r] }

/-- Note one PAU request. -/
def Act.notePau (a : Act) (q : PauReq) : Act :=
  { a with pau := a.pau ++ [q] }

def Act.readSnapS (a : Act) : BitVec 256 × Act := (a.st.snapS, a.noteRead .snapS)
def Act.readSnapA (a : Act) : ExtPoint × Act := (a.st.snapA, a.noteRead .snapA)
def Act.readE (a : Act) (i : BitVec 6) : Digit × Act := (a.st.E.get i.toFin, a.noteRead (.E i))
def Act.readTBL (a : Act) (k : Fin 8) : CachedPoint × Act := (a.st.TBL.get k, a.noteRead (.TBL k))
def Act.readR (a : Act) : ComplPoint × Act := (a.st.R, a.noteRead .R)
def Act.readS (a : Act) : ProjPoint × Act := (a.st.S, a.noteRead .S)
def Act.readH (a : Act) : ExtPoint × Act := (a.st.H, a.noteRead .H)
def Act.readC (a : Act) : CachedPoint × Act := (a.st.C, a.noteRead .C)

def Act.reqAdd (P : Pau) (h : ExtPoint) (c : CachedPoint) (a : Act) : ComplPoint × Act := (P.add h c, a.notePau .add)
def Act.reqDbl (P : Pau) (p : ProjPoint) (a : Act) : ComplPoint × Act := (P.dbl p, a.notePau .dbl)
def Act.reqC2e (P : Pau) (r : ComplPoint) (a : Act) : ExtPoint × Act := (P.c2e r, a.notePau .c2e)
def Act.reqC2p (P : Pau) (r : ComplPoint) (a : Act) : ProjPoint × Act := (P.c2p r, a.notePau .c2p)
def Act.reqE2c (P : Pau) (h : ExtPoint) (a : Act) : CachedPoint × Act := (P.e2c h, a.notePau .e2c)
def Act.reqFeNeg (P : Pau) (x : Fe) (a : Act) : Fe × Act := (P.feNeg x, a.notePau .feNeg)

def Act.writeE (v : Vector Digit 64) (a : Act) : Act := { a with st := { a.st with E := v } }
def Act.writeTBL (k : Fin 8) (v : CachedPoint) (a : Act) : Act :=
  { a with st := { a.st with TBL := a.st.TBL.set k.val v } }
def Act.writeR (v : ComplPoint) (a : Act) : Act := { a with st := { a.st with R := v } }
def Act.writeS (v : ProjPoint) (a : Act) : Act := { a with st := { a.st with S := v } }
def Act.writeH (v : ExtPoint) (a : Act) : Act := { a with st := { a.st with H := v } }
def Act.writeC (v : CachedPoint) (a : Act) : Act := { a with st := { a.st with C := v } }
def Act.writeResult (v : ExtPoint) (a : Act) : Act := { a with st := { a.st with result := v } }
def Act.writeStatus (v : Status) (a : Act) : Act := { a with st := { a.st with status := v } }

/-- `emit(uop w)`: append the event of this uop to the trace (45_sequencer R183). -/
def Act.emit (w : BitVec 12) (a : Act) : State :=
  { a.st with trace := a.st.trace ++ [⟨w, a.reads, a.pau⟩] }

/-- `upc <- upc + 1` (10_state R40). -/
def advance (s : State) : State :=
  { s with upc := s.upc + 1 }

end Sys2Proof.Machine
end

