-- ==== Sys2Proof/Machine/DigitEncoder.lean ====
section
/-! DEFINITION. The Digit Encoder (41_digit_encoder): uop ENC. -/

namespace Sys2Proof.Machine

/-- The carry into digit `i` of the carry pass: `carry := (e[i] + 8) >> 4` after `e[i] := e[i] + carry`, from carry 0
(41_digit_encoder R101, R103). -/
def carryInto (a : BitVec 256) : Nat → Int
  | 0 => 0
  | i + 1 => (nibble a i + carryInto a i + 8) >>> 4

/-- Digit `i` after the carry pass: `e[i] + carry - (carry' << 4)` for digits 0 to 62, and for the last digit the
incoming carry added and nothing subtracted (41_digit_encoder R101). -/
def signedDigit (a : BitVec 256) (i : Nat) : Int :=
  if i < 63 then nibble a i + carryInto a i - carryInto a (i + 1) * 2 ^ 4 else nibble a i + carryInto a i

/-- The digit file ENC writes, each digit stored as `int8` (41_digit_encoder R101). -/
def encodeDigits (a : BitVec 256) : Vector Digit 64 :=
  Vector.ofFn fun i => BitVec.ofInt 8 (signedDigit a i.val)

/-- ENC (41_digit_encoder R101). -/
def runEnc (s : State) : State :=
  let (a, u) := (Act.start s).readSnapS
  advance ((u.writeE (encodeDigits a)).emit (uopWord 0 0 0x1))

/-- ENC (41_digit_encoder R101). -/
def execEnc (s : State) : Outcome := .next (runEnc s)

end Sys2Proof.Machine
end

