-- ==== Sys2Proof/Machine/Evaluator.lean ====
section
/-! DEFINITION. The Double-and-Add Evaluator (44_evaluator): uops ADDI, C2P, DBL, ADD, FIN. -/

namespace Sys2Proof.Machine

/-- ADDI: `R <- PAU.add(PAU.identityExt, C)` (44_evaluator R160). -/
def runAddi (P : Pau) (s : State) : State :=
  let (c, u) := (Act.start s).readC
  let (r, u) := u.reqAdd P P.identityExt c
  advance ((u.writeR r).emit (uopWord 0 0 0x7))

/-- C2P j: `S <- PAU.c2p(R)`; j only names the position (44_evaluator R162). -/
def runC2p (P : Pau) (j : BitVec 2) (s : State) : State :=
  let (r, u) := (Act.start s).readR
  let (p, u) := u.reqC2p P r
  advance ((u.writeS p).emit (uopWord j 0 0x8))

/-- DBL j: `R <- PAU.dbl(S)`; j only names the position (44_evaluator R163). -/
def runDbl (P : Pau) (j : BitVec 2) (s : State) : State :=
  let (p, u) := (Act.start s).readS
  let (r, u) := u.reqDbl P p
  advance ((u.writeR r).emit (uopWord j 0 0x9))

/-- ADD i: `R <- PAU.add(H, C)`; i only names the position (44_evaluator R165). -/
def runAdd (P : Pau) (i : BitVec 6) (s : State) : State :=
  let (h, u) := (Act.start s).readH
  let (c, u) := u.readC
  let (r, u) := u.reqAdd P h c
  advance ((u.writeR r).emit (uopWord 0 i 0xA))

/-- FIN: `RESULT <- PAU.c2e(R)`, BUSY := 0, DONE := 1; upc is not incremented (44_evaluator R169). -/
def runFin (P : Pau) (s : State) : State :=
  let (r, u) := (Act.start s).readR
  let (h, u) := u.reqC2e P r
  ((u.writeResult h).writeStatus (flagsOnFin s.status)).emit (uopWord 0 0 0xB)

/-- ADDI (44_evaluator R160). -/
def execAddi (s : State) : Outcome := .next (runAddi Config.pau s)

/-- C2P j (44_evaluator R162). -/
def execC2p (j : BitVec 2) (s : State) : Outcome := .next (runC2p Config.pau j s)

/-- DBL j (44_evaluator R163). -/
def execDbl (j : BitVec 2) (s : State) : Outcome := .next (runDbl Config.pau j s)

/-- ADD i for i = 0 to 62; i = 63 is a uop the schedule never produces (44_evaluator R165; log 11). -/
def execAdd (i : BitVec 6) (s : State) : Outcome :=
  if (Instr.add i).wf then .next (runAdd Config.pau i s) else .fault (.reservedUop (uopWord 0 i 0xA))

/-- FIN (44_evaluator R169). -/
def execFin (s : State) : Outcome := .next (runFin Config.pau s)

end Sys2Proof.Machine
end

