-- ==== Sys2Proof/Machine/HostReads.lean ====
section
/-! DEFINITION. The host reads (46_host_interface R200). A read answers with a word and changes no register. -/

namespace Sys2Proof.Machine

/-- A read that completes with a word. -/
def answerRead (data : Word) (s : State) : Outcome :=
  .next (respond (.readData data) s)

/-- RD_CTRL reads 0 (R200, 10_state R22). -/
def execRdCtrl (s : State) : Outcome := answerRead 0 s

/-- RD_STATUS reads STATUS (R200, 10_state R23). -/
def execRdStatus (s : State) : Outcome := answerRead (statusWord s.status) s

/-- RD_SCALAR reads 0: the scalar is write-only (R200, 10_state R24). -/
def execRdScalar (_w : BitVec 3) (s : State) : Outcome := answerRead 0 s

/-- RD_BASE reads word `w` of coordinate `c` of BASE (R200). -/
def execRdBase (c : Coord) (w : BitVec 3) (s : State) : Outcome := answerRead (getPointWord s.base c w) s

/-- RD_RES reads word `w` of coordinate `c` of RESULT, the previous result while busy (R200). -/
def execRdRes (c : Coord) (w : BitVec 3) (s : State) : Outcome := answerRead (getPointWord s.result c w) s

/-- RD_RSVD, offsets 0x008 to 0x00F, reads 0 (R200). -/
def execRdRsvd008 (_w : BitVec 1) (s : State) : Outcome := answerRead 0 s

/-- RD_RSVD, offsets 0x010 to 0x01F, reads 0 (R200). -/
def execRdRsvd010 (_w : BitVec 2) (s : State) : Outcome := answerRead 0 s

/-- RD_RSVD, offsets 0x020 to 0x03F, reads 0 (R200). -/
def execRdRsvd020 (_w : BitVec 3) (s : State) : Outcome := answerRead 0 s

/-- RD_RSVD, offsets 0x060 to 0x07F, reads 0 (R200). -/
def execRdRsvd060 (_w : BitVec 3) (s : State) : Outcome := answerRead 0 s

/-- RD_RSVD, offsets 0x180 to 0x1FF, reads 0 (R200). -/
def execRdRsvd180 (_w : BitVec 5) (s : State) : Outcome := answerRead 0 s

end Sys2Proof.Machine
end

