-- ==== Sys2Proof/Machine/HostWrites.lean ====
section
/-! DEFINITION. The host writes (46_host_interface R201 to R208). -/

namespace Sys2Proof.Machine

/-- A write that completes, with this effect on the state. -/
def answerWrite (s : State) : Outcome :=
  .next (respond .writeDone s)

/-- WR_CTRL_START (R204 to R207); DATA[31:1] is ignored. -/
def execWrCtrlStart (_ignored : BitVec 31) (s : State) : Outcome := answerWrite (start s)

/-- WR_CTRL_NOP: no effect (R203). -/
def execWrCtrlNop (_ignored : BitVec 31) (s : State) : Outcome := answerWrite s

/-- WR_STATUS: write 1 to clear (R208). -/
def execWrStatus (data : Word) (s : State) : Outcome := answerWrite (clearByStatusWrite data s)

/-- WR_SCALAR: `SCALARw <- v`, whatever STATUS holds (R201). -/
def execWrScalar (w : BitVec 3) (data : Word) (s : State) : Outcome :=
  answerWrite { s with scalar := setWord s.scalar w data }

/-- WR_BASE: `BASE_C[w] <- v`, whatever STATUS holds (R201). -/
def execWrBase (c : Coord) (w : BitVec 3) (data : Word) (s : State) : Outcome :=
  answerWrite { s with base := setPointWord s.base c w data }

/-- WR_RES: ignored (R202). -/
def execWrRes (_c : Coord) (_w : BitVec 3) (_data : Word) (s : State) : Outcome := answerWrite s

/-- WR_RSVD, offsets 0x008 to 0x00F: ignored (R202). -/
def execWrRsvd008 (_w : BitVec 1) (_data : Word) (s : State) : Outcome := answerWrite s

/-- WR_RSVD, offsets 0x010 to 0x01F: ignored (R202). -/
def execWrRsvd010 (_w : BitVec 2) (_data : Word) (s : State) : Outcome := answerWrite s

/-- WR_RSVD, offsets 0x020 to 0x03F: ignored (R202). -/
def execWrRsvd020 (_w : BitVec 3) (_data : Word) (s : State) : Outcome := answerWrite s

/-- WR_RSVD, offsets 0x060 to 0x07F: ignored (R202). -/
def execWrRsvd060 (_w : BitVec 3) (_data : Word) (s : State) : Outcome := answerWrite s

/-- WR_RSVD, offsets 0x180 to 0x1FF: ignored (R202). -/
def execWrRsvd180 (_w : BitVec 5) (_data : Word) (s : State) : Outcome := answerWrite s

end Sys2Proof.Machine
end

