-- ==== Sys2Proof/Machine/Selector.lean ====
section
/-! DEFINITION. The Constant-Time Selector (43_selector): uop SEL, step by step as rule R148 has it, with all eight
masked passes over the table. -/

namespace Sys2Proof.Machine

/-- `sign := sext_64(b) >> 63`, a logical shift (43_selector R141). -/
def digitSign (b : Digit) : BitVec 64 :=
  b.signExtend 64 >>> 63

/-- `abs := b - ((-sign & b) << 1)` (43_selector R142), in 64-bit two's complement, which is exact for every `int8`
(log 14). -/
def digitAbs (b : Digit) : BitVec 64 :=
  b.signExtend 64 - ((-digitSign b &&& b.signExtend 64) <<< 1)

/-- `mask(abs, m)`: all ones where they are equal, else all zeros (43_selector R144). -/
def eqMask (abs : BitVec 64) (m : Nat) : Fe :=
  if abs = BitVec.ofNat 64 m then BitVec.allOnes 256 else 0

/-- `replicate_256(sign)` (43_selector R147). -/
def signMask (sign : BitVec 64) : Fe :=
  (sign.setWidth 1).signExtend 256

/-- `cmov(f, g, M) := (f AND NOT M) OR (g AND M)` (43_selector R145). -/
def cmov (f g M : Fe) : Fe :=
  (f &&& ~~~M) ||| (g &&& M)

/-- The masked select of every cached field (43_selector R145). -/
def cmovCached (t u : CachedPoint) (M : Fe) : CachedPoint where
  YpX := cmov t.YpX u.YpX M
  YmX := cmov t.YmX u.YmX M
  Z   := cmov t.Z u.Z M
  T2d := cmov t.T2d u.T2d M

/-- `negCached(t)`: swap the first two fields, negate the cross term (43_selector R146). -/
def negCached (P : Pau) (t : CachedPoint) : CachedPoint where
  YpX := t.YmX
  YmX := t.YpX
  Z   := t.Z
  T2d := P.feNeg t.T2d

/-- One pass of the selection for magnitude `m`: read `TBL[m-1]`, select it under `mask(abs, m)` (43_selector R148). -/
def selectPass (abs : BitVec 64) (t : CachedPoint) (u : Act) (m : Nat) : CachedPoint × Act :=
  let (c, u) := u.readTBL (tblIndex (m - 1))
  (cmovCached t c (eqMask abs m), u)

/-- `negCached(t)` as the SEL step computes it, with its one PAU request (43_selector R146, R150). -/
def negate (P : Pau) (t : CachedPoint) (u : Act) : CachedPoint × Act :=
  let (x, u) := u.reqFeNeg P t.T2d
  ({ YpX := t.YmX, YmX := t.YpX, Z := t.Z, T2d := x }, u)

/-- SEL i (43_selector R148). -/
def runSel (P : Pau) (i : BitVec 6) (s : State) : State :=
  let (b, u) := (Act.start s).readE i
  let sign := digitSign b
  let abs := digitAbs b
  let (t, u) := [1, 2, 3, 4, 5, 6, 7, 8].foldl (fun p m => selectPass abs p.1 p.2 m) (identityCached P, u)
  let (n, u) := negate P t u
  let t := cmovCached t n (signMask sign)
  advance ((u.writeC t).emit (uopWord 0 i 0x6))

/-- SEL i (43_selector R148). -/
def execSel (i : BitVec 6) (s : State) : Outcome := .next (runSel Config.pau i s)

end Sys2Proof.Machine
end

