-- ==== Sys2Proof/Machine/TableBuilder.lean ====
section
/-! DEFINITION. The Precomputed Multiples Builder (42_table_builder): uops TCACHE, TADD, C2E, TE2C. The `run` of a uop is
its effect with any PAU; its `exec` is that effect with the machine's PAU. -/

namespace Sys2Proof.Machine

/-- TCACHE: `TBL[0] <- PAU.e2c(SNAP_A)` (42_table_builder R120). -/
def runTcache (P : Pau) (s : State) : State :=
  let (x, u) := (Act.start s).readSnapA
  let (c, u) := u.reqE2c P x
  advance ((u.writeTBL 0 c).emit (uopWord 0 0 0x2))

/-- TADD k: `R <- PAU.add(SNAP_A, TBL[k-1])` (42_table_builder R121). -/
def runTadd (P : Pau) (k : BitVec 6) (s : State) : State :=
  let (x, u) := (Act.start s).readSnapA
  let (c, u) := u.readTBL (tblIndex (k.toNat - 1))
  let (r, u) := u.reqAdd P x c
  advance ((u.writeR r).emit (uopWord 0 k 0x3))

/-- C2E: `H <- PAU.c2e(R)` (42_table_builder R122, 44_evaluator R164). -/
def runC2e (P : Pau) (s : State) : State :=
  let (r, u) := (Act.start s).readR
  let (h, u) := u.reqC2e P r
  advance ((u.writeH h).emit (uopWord 0 0 0x4))

/-- TE2C k: `TBL[k] <- PAU.e2c(H)` (42_table_builder R123). -/
def runTe2c (P : Pau) (k : BitVec 6) (s : State) : State :=
  let (h, u) := (Act.start s).readH
  let (c, u) := u.reqE2c P h
  advance ((u.writeTBL (tblIndex k.toNat) c).emit (uopWord 0 k 0x5))

/-- TCACHE (42_table_builder R120). -/
def execTcache (s : State) : Outcome := .next (runTcache Config.pau s)

/-- TADD k for k = 1 to 7; any other k is a uop the schedule never produces (42_table_builder R121; log 11). -/
def execTadd (k : BitVec 6) (s : State) : Outcome :=
  if (Instr.tadd k).wf then .next (runTadd Config.pau k s) else .fault (.reservedUop (uopWord 0 k 0x3))

/-- C2E (42_table_builder R122). -/
def execC2e (s : State) : Outcome := .next (runC2e Config.pau s)

/-- TE2C k for k = 1 to 7; any other k is a uop the schedule never produces (42_table_builder R123; log 11). -/
def execTe2c (k : BitVec 6) (s : State) : Outcome :=
  if (Instr.te2c k).wf then .next (runTe2c Config.pau k s) else .fault (.reservedUop (uopWord 0 k 0x5))

end Sys2Proof.Machine
end

