-- ==== Sys2Proof/Machine/Dispatch.lean ====
section
/-! DEFINITION. The dispatch: one arm per instruction, each one call of its meaning. -/

namespace Sys2Proof.Machine

def exec (i : Instr) (s : State) : Host.Outcome State Fault Refusal :=
  match i with
  | .wrCtrlStart ignored => Sys2Proof.Machine.execWrCtrlStart ignored s
  | .wrCtrlNop ignored => Sys2Proof.Machine.execWrCtrlNop ignored s
  | .wrStatus data => Sys2Proof.Machine.execWrStatus data s
  | .wrScalar w data => Sys2Proof.Machine.execWrScalar w data s
  | .wrBase c w data => Sys2Proof.Machine.execWrBase c w data s
  | .wrRes c w data => Sys2Proof.Machine.execWrRes c w data s
  | .wrRsvd008 w data => Sys2Proof.Machine.execWrRsvd008 w data s
  | .wrRsvd010 w data => Sys2Proof.Machine.execWrRsvd010 w data s
  | .wrRsvd020 w data => Sys2Proof.Machine.execWrRsvd020 w data s
  | .wrRsvd060 w data => Sys2Proof.Machine.execWrRsvd060 w data s
  | .wrRsvd180 w data => Sys2Proof.Machine.execWrRsvd180 w data s
  | .rdCtrl => Sys2Proof.Machine.execRdCtrl s
  | .rdStatus => Sys2Proof.Machine.execRdStatus s
  | .rdScalar w => Sys2Proof.Machine.execRdScalar w s
  | .rdBase c w => Sys2Proof.Machine.execRdBase c w s
  | .rdRes c w => Sys2Proof.Machine.execRdRes c w s
  | .rdRsvd008 w => Sys2Proof.Machine.execRdRsvd008 w s
  | .rdRsvd010 w => Sys2Proof.Machine.execRdRsvd010 w s
  | .rdRsvd020 w => Sys2Proof.Machine.execRdRsvd020 w s
  | .rdRsvd060 w => Sys2Proof.Machine.execRdRsvd060 w s
  | .rdRsvd180 w => Sys2Proof.Machine.execRdRsvd180 w s
  | .enc => Sys2Proof.Machine.execEnc s
  | .tcache => Sys2Proof.Machine.execTcache s
  | .tadd k => Sys2Proof.Machine.execTadd k s
  | .c2e => Sys2Proof.Machine.execC2e s
  | .te2c k => Sys2Proof.Machine.execTe2c k s
  | .sel d => Sys2Proof.Machine.execSel d s
  | .addi => Sys2Proof.Machine.execAddi s
  | .c2p j => Sys2Proof.Machine.execC2p j s
  | .dbl j => Sys2Proof.Machine.execDbl j s
  | .add d => Sys2Proof.Machine.execAdd d s
  | .fin => Sys2Proof.Machine.execFin s

end Sys2Proof.Machine
end

