-- ==== Sys2Proof/Machine/Sequencer.lean ====
section
/-! DEFINITION. The fixed schedule (45_sequencer R180, R181), the trace table (R183) and the timing sum (70_reset R250). -/

namespace Sys2Proof.Machine

/-- `N_UOPS = 719` (10_state R39). -/
def nUops : Nat := 719

/-- The eleven uops of one digit (44_evaluator R166), by their place `r` in the digit (45_sequencer R181). -/
def digitUop (i : Nat) (r : Nat) : BitVec 12 :=
  if r = 10 then uopWord 0 (BitVec.ofNat 6 i) 0xA
  else if r = 9 then uopWord 0 (BitVec.ofNat 6 i) 0x6
  else if r = 8 then uopWord 0 0 0x4
  else if r % 2 = 0 then uopWord (BitVec.ofNat 2 (r / 2)) 0 0x8
  else uopWord (BitVec.ofNat 2 ((r - 1) / 2)) 0 0x9

/-- The three uops of one table entry (42_table_builder R124), by their place `r` (45_sequencer R181). -/
def tableUop (k : Nat) (r : Nat) : BitVec 12 :=
  if r = 0 then uopWord 0 (BitVec.ofNat 6 k) 0x3
  else if r = 1 then uopWord 0 0 0x4
  else uopWord 0 (BitVec.ofNat 6 k) 0x5

/-- The schedule function `sched(n)`, n = 0 to 718; past it there is no uop (45_sequencer R181). -/
def sched (n : Nat) : Option (BitVec 12) :=
  if n = 0 then some (uopWord 0 0 0x1)
  else if n = 1 then some (uopWord 0 0 0x2)
  else if n ≤ 22 then some (tableUop ((n - 2) / 3 + 1) ((n - 2) % 3))
  else if n = 23 then some (uopWord 0 63 0x6)
  else if n = 24 then some (uopWord 0 0 0x7)
  else if n ≤ 717 then some (digitUop (62 - (n - 25) / 11) ((n - 25) % 11))
  else if n = 718 then some (uopWord 0 0 0xB)
  else none

/-- The first index of the schedule that holds a uop, read off 45_sequencer R181; an index past the schedule for an
instruction that it does not hold. -/
def firstIndex (i : Instr) : Nat :=
  if i.wf then
    match i with
    | .enc => 0
    | .tcache => 1
    | .tadd k => 2 + 3 * (k.toNat - 1)
    | .c2e => 3
    | .te2c k => 4 + 3 * (k.toNat - 1)
    | .sel d => if d = 63 then 23 else 34 + 11 * (62 - d.toNat)
    | .addi => 24
    | .c2p j => 25 + 2 * j.toNat
    | .dbl j => 26 + 2 * j.toNat
    | .add d => 35 + 11 * (62 - d.toNat)
    | .fin => 718
    | _ => 1023
  else 1023

/-! ## The trace table -/

/-- The registers a uop reads and the requests it makes, as the table of 45_sequencer R183 lists them. It is written
from that table alone, apart from the uops' meanings, which note their own reads and requests. -/
def tableEvent (w : BitVec 12) : Option Event :=
  match decodeUop w with
  | .ok .enc => some ⟨w, [.snapS], []⟩
  | .ok .tcache => some ⟨w, [.snapA], [.e2c]⟩
  | .ok (.tadd k) => some ⟨w, [.snapA, .TBL (tblIndex (k.toNat - 1))], [.add]⟩
  | .ok .c2e => some ⟨w, [.R], [.c2e]⟩
  | .ok (.te2c _) => some ⟨w, [.H], [.e2c]⟩
  | .ok (.sel i) => some ⟨w, [.E i, .TBL 0, .TBL 1, .TBL 2, .TBL 3, .TBL 4, .TBL 5, .TBL 6, .TBL 7], [.feNeg]⟩
  | .ok .addi => some ⟨w, [.C], [.add]⟩
  | .ok (.c2p _) => some ⟨w, [.R], [.c2p]⟩
  | .ok (.dbl _) => some ⟨w, [.S], [.dbl]⟩
  | .ok (.add _) => some ⟨w, [.H, .C], [.add]⟩
  | .ok .fin => some ⟨w, [.R], [.c2e]⟩
  | _ => none

/-- `fixedTrace = [ev(sched(0)), ..., ev(sched(718))]` (45_sequencer R184). -/
def fixedTrace : List Event :=
  (List.range nUops).filterMap fun n => (sched n).bind tableEvent

/-! ## Timing -/

/-- The latency kind of a uop, its PAU request included (70_reset R250). -/
def latKind (w : BitVec 12) : Option LatKind :=
  match decodeUop w with
  | .ok .enc => some .enc
  | .ok .tcache | .ok (.te2c _) => some .e2c
  | .ok (.tadd _) | .ok .addi | .ok (.add _) => some .add
  | .ok .c2e | .ok .fin => some .c2e
  | .ok (.sel _) => some .sel
  | .ok (.c2p _) => some .c2p
  | .ok (.dbl _) => some .dbl
  | _ => none

/-- The cycles of a list of events: `T_fixed + Σ LAT(ev)` (70_reset R250). -/
def cyclesOf (evs : List Event) : Nat :=
  Config.tFixed + ((evs.filterMap fun ev => latKind ev.word).map Config.lat).sum

end Sys2Proof.Machine
end

