-- ==== Sys2Proof/Machine/Agents.lean ====
section
/-! DEFINITION. What one turn of each agent does (00_scope R14, 45_sequencer R182, 30_encoding R82). -/

namespace Sys2Proof.Machine

/-- A sequencer turn: the uop `sched(upc)` while BUSY, no step otherwise (45_sequencer R182, 10_state R38). -/
def sequencerTurn (s : State) : Outcome :=
  if s.status.busy then
    match sched s.upc.toNat with
    | none => .fault (.upcOutOfRange s.upc)
    | some w =>
      match decodeUop w with
      | .ok i => exec i s
      | .reject _ => .fault (.reservedUop w)
  else .next s

/-- A host turn: the access is decoded, and one that is no instruction is a bus error (30_encoding R82). -/
def hostTurn (a : Access) (s : State) : Outcome :=
  match decodeAccess a with
  | .ok i => exec i s
  | .reject _ => .next (raiseError (.busError a.off) s)

/-- A state with an ERRCODE that the block never produces is a fault (93 U9; log 13). -/
def checkErrcode (s : State) (o : Outcome) : Outcome :=
  if s.status.errcode.toNat ≤ 1 then o else .fault (.reservedErrcode s.status.errcode)

/-- The next turn. Reset takes precedence over everything (70_reset R240). With no turn left, the sequencer runs on by
itself, and an idle block stays as it is (log 5). -/
def nextTurn (s : State) : Outcome :=
  match s.turns with
  | .reset _ :: rest => .next (resetInput { s with turns := rest })
  | .host a :: rest => checkErrcode s (hostTurn a { s with turns := rest })
  | .sequencer :: rest => checkErrcode s (sequencerTurn { s with turns := rest })
  | [] => checkErrcode s (sequencerTurn s)

/-- The state in which the next turn runs this word of the opcode table (log 19). A transaction word becomes the host's
next access. A uop word cannot be placed anywhere, since the schedule is fixed logic (20_memory R74): a running
sequencer is put at its first index in the schedule; a word the schedule does not hold puts it past the schedule, where
the next turn faults. -/
def placeWord (s : State) (nbits w : Nat) : State :=
  match tableWord? nbits w with
  | some (.host ht) =>
    let op : BusOp := if ht.getLsbD 41 then .write 0xF (ht.extractLsb' 0 32) else .read
    { s with turns := .host ⟨ht.extractLsb' 32 9, 32, op⟩ :: s.turns }
  | some (.uop u) =>
    let at_ := match decodeUop u with
      | .ok i => firstIndex i
      | .reject _ => 1023
    { s with status := { s.status with busy := true }, upc := BitVec.ofNat 10 at_, turns := .sequencer :: s.turns }
  | none => { s with status := { s.status with busy := true }, upc := 1023, turns := .sequencer :: s.turns }

end Sys2Proof.Machine
end

