-- ==== Sys2Proof/Machine/Step.lean ====
section
/-! DEFINITION. One step of the machine: the next turn in the one total order of the port (20_memory R71). -/

namespace Sys2Proof.Machine

/-- One atomic step of one agent (00_scope R14). -/
def step (s : State) : Host.Outcome State Fault Refusal :=
  nextTurn s

/-- The state whose very next step runs this word of the opcode table (log 19). -/
def State.withFetchWord (s : State) (nbits w : Nat) : State :=
  placeWord s nbits w

end Sys2Proof.Machine
end

