-- ==== Sys2Proof/Machine/Driver.lean ====
section
/-! DEFINITION. The host driver notation (30_encoding R90, R91): what each line puts in the list of turns. -/

namespace Sys2Proof.Machine

/-- `WR off, v` (30_encoding R90): an aligned 32-bit write with all byte enables. -/
def wr (off : BitVec 9) (v : Word) : Turn :=
  .host ⟨off, 32, .write 0xF v⟩

/-- `RD off` (30_encoding R90). -/
def rd (off : BitVec 9) : Turn :=
  .host ⟨off, 32, .read⟩

/-- `POLL off, mask, val` reads `off` until this holds of the word read (30_encoding R90). The loop is the host's: it
is a run of `rd` turns. -/
def pollEnds (mask val : Word) : Option Response → Bool
  | some (.readData t) => t &&& mask == val
  | _ => false

/-- Word numbers 0 to 7, in increasing order (30_encoding R91). -/
def wordNumbers : List (BitVec 3) := [0, 1, 2, 3, 4, 5, 6, 7]

/-- `LDSCALAR s` (30_encoding R91). -/
def ldScalar (v : BitVec 256) : List Turn :=
  wordNumbers.map fun w => wr (Target.scalar w).offset (getWord v w)

/-- The eight writes of one coordinate of `LDBASE` (30_encoding R91). -/
def ldCoord (p : ExtPoint) (c : Coord) : List Turn :=
  wordNumbers.map fun w => wr (Target.base c w).offset (getPointWord p c w)

/-- `LDBASE X, Y, Z, T` (30_encoding R91). -/
def ldBase (p : ExtPoint) : List Turn :=
  ldCoord p .X ++ ldCoord p .Y ++ ldCoord p .Z ++ ldCoord p .T

/-- `GO` (30_encoding R91). -/
def go : Turn := wr 0x000 0x00000001

/-- One read of `WAIT`, which ends when `waitEnds` holds (30_encoding R91). -/
def waitRead : Turn := rd 0x004

/-- `WAIT` ends at BUSY = 0 and DONE = 1 (30_encoding R91). -/
def waitEnds (r : Option Response) : Bool := pollEnds 0x00000003 0x00000002 r

/-- `CLR` (30_encoding R91). -/
def clr : Turn := wr 0x004 0x00000006

/-- `RDRES`: the 32 reads of RESULT (30_encoding R91). -/
def rdRes : List Turn :=
  [Coord.X, Coord.Y, Coord.Z, Coord.T].flatMap fun c => wordNumbers.map fun w => rd (Target.res c w).offset

end Sys2Proof.Machine
end

