-- ==== Sys2Proof/Safety.lean ====
section
/-! DEFINITION. The terms claims are stated in: runs, the legal states, what a safe state is, and the named laws of the
PAU. -/

namespace Sys2Proof.Machine

/-! ## Runs -/

/-- `n` steps from `s`, stopping at the first fault or refusal. -/
def runSteps : Nat → State → Outcome
  | 0, s => .next s
  | n + 1, s =>
    match step s with
    | .next t => runSteps n t
    | .fault f => .fault f
    | .refused r => .refused r

/-- A turn that is not a reset. -/
def Turn.isReset : Turn → Bool
  | .reset _ => true
  | .host _ | .sequencer => false

/-- A turn of the sequencer. -/
def Turn.isSequencer : Turn → Bool
  | .sequencer => true
  | .host _ | .reset _ => false

/-- An interleaving of one whole operation with any host accesses: no reset, and 719 sequencer turns
(45_sequencer R184, R189). -/
def operationTurns (l : List Turn) : Prop :=
  (∀ t ∈ l, t.isReset = false) ∧ l.countP Turn.isSequencer = nUops

/-- Two states with the same internal registers (10_state R27 to R34, R40). -/
def sameInternals (s t : State) : Prop :=
  s.snapS = t.snapS ∧ s.snapA = t.snapA ∧ s.E = t.E ∧ s.TBL = t.TBL ∧ s.R = t.R ∧ s.S = t.S ∧ s.H = t.H ∧
    s.C = t.C ∧ s.upc = t.upc

/-! ## What the window shows and what the selector selects, as the rules tabulate them -/

/-- Coordinate number 0 to 3 of a point: X, Y, Z, T (46_host_interface R200). -/
def coordNumbered (p : ExtPoint) (n : Nat) : Fe :=
  if n = 0 then p.X else if n = 1 then p.Y else if n = 2 then p.Z else p.T

/-- The number a 32-bit read of a window offset returns, by the offset ranges of 46_host_interface R200. The word at
offset `o` of a 32-byte value starts at its bit `8·(o mod 32)` (20_memory R62). -/
def windowRead (s : State) (off : Nat) : Nat :=
  if off = 0x004 then
    s.status.busy.toNat + 2 * s.status.done.toNat + 4 * s.status.err.toNat + 16 * s.status.errcode.toNat
  else if 0x080 ≤ off ∧ off < 0x100 then
    (coordNumbered s.base ((off - 0x080) / 0x20)).toNat / 2 ^ (8 * (off % 0x20)) % 2 ^ 32
  else if 0x100 ≤ off ∧ off < 0x180 then
    (coordNumbered s.result ((off - 0x100) / 0x20)).toNat / 2 ^ (8 * (off % 0x20)) % 2 ^ 32
  else 0

/-- The value SEL selects for a digit value `b` (43_selector R149): `TBL[b-1]`, its negation for a negative digit, the
identity for 0. A magnitude of 9 or more matches no entry (93 U3). -/
def selectedMultiple (P : Pau) (T : Vector CachedPoint 8) (b : Int) : CachedPoint :=
  let t := if h : 1 ≤ b.natAbs ∧ b.natAbs ≤ 8 then T.get ⟨b.natAbs - 1, by omega⟩ else P.e2c P.identityExt
  if b < 0 then negCached P t else t

/-! ## Legal and safe states -/

/-- The states a run from reset can be in: the legal STATUS values (10_state R23), `upc` in its range while running
(R40), a running operation's scalar within the precondition (46_host_interface R206) and its digits those of its
scalar once ENC has run (10_state R29). -/
structure State.Inv (s : State) : Prop where
  busy_alone      : s.status.busy = true → s.status.done = false ∧ s.status.err = false
  errcode_of_err  : s.status.errcode = if s.status.err then 1 else 0
  upc_in_range    : s.status.busy = true → s.upc.toNat ≤ 718
  scalar_in_range : s.status.busy = true → s.snapS.toNat < 2 ^ 255
  digits_encoded  : s.status.busy = true → 1 ≤ s.upc.toNat → s.E = encodeDigits s.snapS

/-- A state whose next step does not stop. -/
def State.Safe (s : State) : Prop :=
  ∃ t, step s = .next t

/-- A running operation about to run its first uop (46_host_interface R205). -/
def State.AtFirstUop (s : State) : Prop :=
  s.Inv ∧ s.status.busy = true ∧ s.upc = 0

/-! ## Digits -/

/-- The value of digit `i` of a digit file (10_state R29). -/
def digitAt (E : Vector Digit 64) (i : Fin 64) : Int :=
  (E.get i).toInt

/-- `Σ E[i]·16^i` (41_digit_encoder R104). -/
def digitSum (E : Vector Digit 64) : Int :=
  ∑ i : Fin 64, digitAt E i * 16 ^ i.val

/-- `V(k) = Σ_{j ≥ k} E[j]·16^(j-k)` (44_evaluator R167). -/
def digitsFrom (E : Vector Digit 64) (k : Nat) : Int :=
  ∑ j : Fin 64, if k ≤ j.val then digitAt E j * 16 ^ (j.val - k) else 0

/-! ## The named laws of the PAU (00_scope R10) -/

/-- The point each form denotes in a group, and the values of each form for which the laws are assumed (law L6: the
values the schedule can produce from a base point the host wrote). -/
structure Denotation (G : Type) where
  ext      : ExtPoint → G
  cached   : CachedPoint → G
  compl    : ComplPoint → G
  proj     : ProjPoint → G
  okExt    : ExtPoint → Prop
  okCached : CachedPoint → Prop
  okCompl  : ComplPoint → Prop
  okProj   : ProjPoint → Prop

/-- Laws L1 to L5 of 00_scope R10 on the values of L6, which the PAU's functions do not leave. -/
structure PauLaws (P : Pau) {G : Type} [AddCommGroup G] (D : Denotation G) : Prop where
  c2e : ∀ r, D.okCompl r → D.okExt (P.c2e r) ∧ D.ext (P.c2e r) = D.compl r
  c2p : ∀ r, D.okCompl r → D.okProj (P.c2p r) ∧ D.proj (P.c2p r) = D.compl r
  e2c : ∀ h, D.okExt h → D.okCached (P.e2c h) ∧ D.cached (P.e2c h) = D.ext h
  add : ∀ h c, D.okExt h → D.okCached c → D.okCompl (P.add h c) ∧ D.compl (P.add h c) = D.ext h + D.cached c
  dbl : ∀ p, D.okProj p → D.okCompl (P.dbl p) ∧ D.compl (P.dbl p) = D.proj p + D.proj p
  identity : D.okExt P.identityExt ∧ D.ext P.identityExt = 0
  neg : ∀ c, D.okCached c → D.okCached (negCached P c) ∧ D.cached (negCached P c) = - D.cached c

/-! ## What a running operation has done so far -/

/-- The events of a running operation so far are the first `upc` events of the fixed trace (45_sequencer R183, R184). -/
def State.TraceOnSchedule (s : State) : Prop :=
  s.status.busy = true → fixedTrace.take s.upc.toNat <:+ s.trace

/-- What the registers of a running operation denote at each `upc` (42_table_builder R125, 44_evaluator R167), as
multiples of the point `SNAP_A` denotes; `V(k)` is `digitsFrom s.E k`. Digit `i` of the evaluation begins at `upc`
`25 + 11·(62-i)` (45_sequencer R181). -/
structure State.OnMultiples {G : Type} [AddCommGroup G] (D : Denotation G) (s : State) : Prop where
  base      : D.okExt s.snapA
  table     : ∀ k : Fin 8, 3 * k.val + 2 ≤ s.upc.toNat →
    D.okCached (s.TBL.get k) ∧ D.cached (s.TBL.get k) = (k.val + 1) • D.ext s.snapA
  after_tadd : ∀ k, 1 ≤ k → k ≤ 7 → s.upc.toNat = 3 * k →
    D.okCompl s.R ∧ D.compl s.R = (k + 1) • D.ext s.snapA
  after_c2e : ∀ k, 1 ≤ k → k ≤ 7 → s.upc.toNat = 3 * k + 1 →
    D.okExt s.H ∧ D.ext s.H = (k + 1) • D.ext s.snapA
  after_sel63 : s.upc.toNat = 24 →
    D.okCached s.C ∧ D.cached s.C = digitAt s.E 63 • D.ext s.snapA
  at_digit  : ∀ k ≤ 63, s.upc.toNat = 25 + 11 * (63 - k) →
    D.okCompl s.R ∧ D.compl s.R = digitsFrom s.E k • D.ext s.snapA
  after_c2p : ∀ i ≤ 62, ∀ j < 4, s.upc.toNat = 25 + 11 * (62 - i) + 2 * j + 1 →
    D.okProj s.S ∧ D.proj s.S = (2 ^ j * digitsFrom s.E (i + 1)) • D.ext s.snapA
  after_dbl : ∀ i ≤ 62, ∀ j < 4, s.upc.toNat = 25 + 11 * (62 - i) + 2 * j + 2 →
    D.okCompl s.R ∧ D.compl s.R = (2 ^ (j + 1) * digitsFrom s.E (i + 1)) • D.ext s.snapA
  doubled   : ∀ i ≤ 62, ∀ r, r = 9 ∨ r = 10 → s.upc.toNat = 25 + 11 * (62 - i) + r →
    D.okExt s.H ∧ D.ext s.H = (2 ^ 4 * digitsFrom s.E (i + 1)) • D.ext s.snapA
  after_sel : ∀ i : Fin 63, s.upc.toNat = 25 + 11 * (62 - i.val) + 10 →
    D.okCached s.C ∧ D.cached s.C = digitAt s.E i.castSucc • D.ext s.snapA

end Sys2Proof.Machine
end

