-- ==== Sys2Proof/Certificates/Slice0/Obligations.lean ====
section
/-! DEFINITION. The statements. Each docstring names the rule of spec/ it formalises. -/

open Sys2Proof Sys2Proof.Machine

/-! ## Encodings -/

/-- 30_encoding R81, R83, R86, R87: decoding the encoder's word gives the instruction back, every operand included. -/
def Obligations.DecodeOfEncodeIsTheInstruction : Prop :=
  ∀ i : Instr, decode (encode i) = .ok i

/-- 30_encoding R81, R86: encoding what was decoded gives the word back; of a read, with the DATA field that R81 says
is 0 (log 9). -/
def Obligations.EncodeOfDecodeIsTheWord : Prop :=
  (∀ (w : BitVec 12) (i : Instr), decodeUop w = .ok i → encode i = .uop w) ∧
  (∀ (off : BitVec 9) (v : Word) (i : Instr), decodeHost (transactionWord true off v) = .ok i →
    encode i = .host (transactionWord true off v)) ∧
  (∀ (off : BitVec 9) (v : Word) (i : Instr), decodeHost (transactionWord false off v) = .ok i →
    encode i = .host (transactionWord false off 0))

/-- spec/opcode_table.json, 30_encoding R83, R87: a word that decodes matches the mask of its instruction's row and of
no other row. -/
def Obligations.DecodedWordMatchesExactlyItsRow : Prop :=
  ∀ (e : Encoded) (i : Instr), decode e = .ok i →
    i.row.matchesWord e = true ∧ ∀ j : Instr, j.row.matchesWord e = true → j.row = i.row

/-- 30_encoding R82: the order of the checks, and that every access that passes them decodes. -/
def Obligations.AccessChecksComeInOrder : Prop :=
  ∀ a : Access,
    (a.sizeBits ≠ 32 → decodeAccess a = .reject .size) ∧
    (∀ be v, a.sizeBits = 32 → a.op = .write be v → be ≠ 0xF → decodeAccess a = .reject .byteEnables) ∧
    (a.sizeBits = 32 → (∀ be v, a.op = .write be v → be = 0xF) → a.off.toNat % 4 ≠ 0 →
      decodeAccess a = .reject .misaligned) ∧
    (a.sizeBits = 32 → (∀ be v, a.op = .write be v → be = 0xF) → a.off.toNat % 4 = 0 →
      ∃ i, decodeAccess a = .ok i)

/-- 95_test_vectors P1, P2 and T32: words written out there decode to the instruction written beside them. -/
def Obligations.WordsOfTheSpecDecode : Prop :=
  decode (.host 0x2400000000F) = .ok (.wrScalar 0 15) ∧
  decode (.host 0x25C80000000) = .ok (.wrScalar 7 0x80000000) ∧
  decode (.host 0x28000000001) = .ok (.wrBase .X 0 1) ∧
  decode (.host 0x2FC00000000) = .ok (.wrBase .T 7 0) ∧
  decode (.host 0x20000000001) = .ok (.wrCtrlStart 0) ∧
  decode (.host 0x20400000006) = .ok (.wrStatus 6) ∧
  decode (.host 0x00400000000) = .ok .rdStatus ∧
  decode (.host 0x17C00000000) = .ok (.rdRes .T 7) ∧
  decode (.uop 0x001) = .ok .enc ∧
  decode (.uop 0x073) = .ok (.tadd 7) ∧
  decode (.uop 0x075) = .ok (.te2c 7) ∧
  decode (.uop 0x3F6) = .ok (.sel 63) ∧
  decode (.uop 0xC09) = .ok (.dbl 3) ∧
  decode (.uop 0x3EA) = .ok (.add 62) ∧
  decode (.uop 0x00B) = .ok .fin

/-! ## Steps -/

/-- 00_scope R14, 30_encoding R82: a host turn whose access decodes runs the decoded instruction, with the turn taken
off the list. -/
def Obligations.StepRunsTheDecodedAccess : Prop :=
  ∀ (s : State) (a : Access) (rest : List Turn) (i : Instr),
    s.turns = .host a :: rest → s.status.errcode.toNat ≤ 1 → decodeAccess a = .ok i →
      step s = exec i { s with turns := rest }

/-- 45_sequencer R182: a running sequencer executes `sched(upc)` on its turn (with no turn left it goes on by itself, the
model's choice, log 5). -/
def Obligations.StepRunsTheScheduledUop : Prop :=
  ∀ (s : State) (w : BitVec 12) (i : Instr),
    s.status.busy = true → s.status.errcode.toNat ≤ 1 → sched s.upc.toNat = some w → decodeUop w = .ok i →
      (∀ rest, s.turns = .sequencer :: rest → step s = exec i { s with turns := rest }) ∧
      (s.turns = [] → step s = exec i s)

/-- 10_state R38: an idle sequencer takes no step; its turn passes (with no turn left the state stays as it is, the
model's choice, log 5). -/
def Obligations.IdleSequencerTakesNoStep : Prop :=
  ∀ s : State, s.status.busy = false → s.status.errcode.toNat ≤ 1 →
    (∀ rest, s.turns = .sequencer :: rest → step s = .next { s with turns := rest }) ∧
    (s.turns = [] → step s = .next s)

/-- 20_memory R64, R65, 30_encoding R82, 60_exceptions R220, R221: an access of a wrong size, a write with byte enables
missing or a misaligned access completes with the bus's error response and changes nothing else. That it is a next state
in which the answer changes is the model's reading (log 7), and so is that only a write has byte enables, as R82 says
where R64 and R220 speak of any access (log 10). -/
def Obligations.BadAccessIsABusErrorThatChangesNothing : Prop :=
  ∀ (s : State) (a : Access) (rest : List Turn),
    s.turns = .host a :: rest → s.status.errcode.toNat ≤ 1 →
    (a.sizeBits ≠ 32 ∨ (∃ be v, a.op = .write be v ∧ be ≠ 0xF) ∨ a.off.toNat % 4 ≠ 0) →
      step s = .next { s with turns := rest, response := some (.busError a.off) }

/-- 70_reset R240, R241: reset abandons any operation; every host-visible register is 0, the sequencer is idle, the
access of the same step is not answered, and the trace has no event of the reset's own (log 16). -/
def Obligations.ResetTurnGivesTheResetState : Prop :=
  ∀ (s : State) (lost : Option Access) (rest : List Turn), s.turns = .reset lost :: rest →
    ∃ t, step s = .next t ∧ t.status = ⟨false, false, false, 0⟩ ∧ t.scalar = 0 ∧ t.base = ⟨0, 0, 0, 0⟩ ∧
      t.result = ⟨0, 0, 0, 0⟩ ∧ t.response = none ∧ t.trace = s.trace ∧ t.turns = rest

/-- 10_state R41 with 46_host_interface R200: after reset every word of the window reads 0. -/
def Obligations.EveryWindowWordReadsZeroAfterReset : Prop :=
  ∀ off : BitVec 9, off.toNat % 4 = 0 →
    ∃ t, step { State.reset with turns := [rd off] } = .next t ∧ t.response = some (.readData 0)

/-- 93 U9 (log 13): a state with a reserved ERRCODE is a fault, unless the turn is a reset. -/
def Obligations.ReservedErrcodeIsAFault : Prop :=
  ∀ s : State, 2 ≤ s.status.errcode.toNat → (∀ l rest, s.turns ≠ .reset l :: rest) →
    step s = .fault (.reservedErrcode s.status.errcode)

/-! ## Host reads -/

/-- 46_host_interface R200: a read returns what the rule's table gives for its offset, and changes nothing else. -/
def Obligations.ReadReturnsTheWindowWord : Prop :=
  ∀ (s : State) (off : BitVec 9) (rest : List Turn),
    s.turns = rd off :: rest → s.status.errcode.toNat ≤ 1 → off.toNat % 4 = 0 →
      step s = .next { s with
        turns := rest, response := some (.readData (BitVec.ofNat 32 (windowRead s off.toNat))) }

/-- 46_host_interface R200, per instruction: every read completes, answers its word, and changes nothing else. -/
def Obligations.HostReadsComplete : Prop :=
  ∀ s : State,
    exec .rdCtrl s = .next { s with response := some (.readData 0) } ∧
    exec .rdStatus s = .next { s with response := some (.readData (BitVec.ofNat 32
      (s.status.busy.toNat + 2 * s.status.done.toNat + 4 * s.status.err.toNat + 16 * s.status.errcode.toNat))) } ∧
    (∀ w, exec (.rdScalar w) s = .next { s with response := some (.readData 0) }) ∧
    (∀ c w, exec (.rdBase c w) s = .next { s with
      response := some (.readData (BitVec.ofNat 32 ((getCoord s.base c).toNat / 2 ^ (32 * w.toNat)))) }) ∧
    (∀ c w, exec (.rdRes c w) s = .next { s with
      response := some (.readData (BitVec.ofNat 32 ((getCoord s.result c).toNat / 2 ^ (32 * w.toNat)))) }) ∧
    (∀ w, exec (.rdRsvd008 w) s = .next { s with response := some (.readData 0) }) ∧
    (∀ w, exec (.rdRsvd010 w) s = .next { s with response := some (.readData 0) }) ∧
    (∀ w, exec (.rdRsvd020 w) s = .next { s with response := some (.readData 0) }) ∧
    (∀ w, exec (.rdRsvd060 w) s = .next { s with response := some (.readData 0) }) ∧
    (∀ w, exec (.rdRsvd180 w) s = .next { s with response := some (.readData 0) })

/-! ## Host writes -/

/-- 46_host_interface R201: the offsets of SCALAR and BASE, and what their writes do: the word is stored, bit by bit,
and nothing else changes, whatever STATUS holds. -/
def Obligations.InputWriteStoresItsWordOnly : Prop :=
  ∀ (w : BitVec 3) (d : Word),
    decodeAccess ⟨BitVec.ofNat 9 (0x040 + 4 * w.toNat), 32, .write 0xF d⟩ = .ok (.wrScalar w d) ∧
    (∀ c : Coord, decodeAccess ⟨BitVec.ofNat 9 (0x080 + 0x20 * c.bits.toNat + 4 * w.toNat), 32, .write 0xF d⟩ =
      .ok (.wrBase c w d)) ∧
    ∀ s : State,
      (∃ v, exec (.wrScalar w d) s = .next { s with scalar := v, response := some .writeDone } ∧
        ∀ i < 256, v.getLsbD i =
          if 32 * w.toNat ≤ i ∧ i < 32 * w.toNat + 32 then d.getLsbD (i - 32 * w.toNat) else s.scalar.getLsbD i) ∧
      (∀ c, ∃ p, exec (.wrBase c w d) s = .next { s with base := p, response := some .writeDone } ∧
        ∀ e, ∀ i < 256, (getCoord p e).getLsbD i =
          if e = c ∧ 32 * w.toNat ≤ i ∧ i < 32 * w.toNat + 32 then d.getLsbD (i - 32 * w.toNat)
          else (getCoord s.base e).getLsbD i)

/-- 10_state R24: SCALARw holds bytes `s[4w]` to `s[4w+3]`, the lowest in bits 7:0; the other bytes stay. -/
def Obligations.ScalarBytesAreLittleEndian : Prop :=
  ∀ (s : State) (w : BitVec 3) (d : Word), ∃ t, exec (.wrScalar w d) s = .next t ∧
    (∀ j < 4, scalarByte t.scalar (4 * w.toNat + j) = d.extractLsb' (8 * j) 8) ∧
    (∀ k < 32, k / 4 ≠ w.toNat → scalarByte t.scalar k = scalarByte s.scalar k)

/-- 46_host_interface R202, R203: every write to a RES or reserved offset, and a CTRL write with bit 0 = 0, completes
and changes nothing; first by offset, then by instruction. -/
def Obligations.IgnoredWritesChangeNothing : Prop :=
  (∀ (off : BitVec 9) (d : Word), off.toNat % 4 = 0 →
    (0x008 ≤ off.toNat ∧ off.toNat < 0x040) ∨ (0x060 ≤ off.toNat ∧ off.toNat < 0x080) ∨ 0x100 ≤ off.toNat →
      ∃ i, decodeAccess ⟨off, 32, .write 0xF d⟩ = .ok i ∧
        ∀ s : State, exec i s = .next { s with response := some .writeDone }) ∧
  (∀ d : Word, d.getLsbD 0 = false → ∃ x, decodeAccess ⟨0x000, 32, .write 0xF d⟩ = .ok (.wrCtrlNop x)) ∧
  ∀ (s : State) (d : Word),
    (∀ c w, exec (.wrRes c w d) s = .next { s with response := some .writeDone }) ∧
    (∀ w, exec (.wrRsvd008 w d) s = .next { s with response := some .writeDone }) ∧
    (∀ w, exec (.wrRsvd010 w d) s = .next { s with response := some .writeDone }) ∧
    (∀ w, exec (.wrRsvd020 w d) s = .next { s with response := some .writeDone }) ∧
    (∀ w, exec (.wrRsvd060 w d) s = .next { s with response := some .writeDone }) ∧
    (∀ w, exec (.wrRsvd180 w d) s = .next { s with response := some .writeDone }) ∧
    (∀ x, exec (.wrCtrlNop x) s = .next { s with response := some .writeDone })

/-- 46_host_interface R204 to R207, 60_exceptions R226: a CTRL write with bit 0 = 1 is START; it is ignored while busy;
otherwise bit 255 of the scalar decides between the accept and ScalarRange, and nothing else changes. -/
def Obligations.StartIsIgnoredAcceptedOrRejected : Prop :=
  (∀ d : Word, d.getLsbD 0 = true → ∃ x, decodeAccess ⟨0x000, 32, .write 0xF d⟩ = .ok (.wrCtrlStart x)) ∧
  ∀ (s : State) (x : BitVec 31),
    (s.status.busy = true → exec (.wrCtrlStart x) s = .next { s with response := some .writeDone }) ∧
    (s.status.busy = false → s.scalar.toNat < 2 ^ 255 → exec (.wrCtrlStart x) s = .next { s with
      status := ⟨true, false, false, 0⟩, snapS := s.scalar, snapA := s.base, upc := 0,
      response := some .writeDone }) ∧
    (s.status.busy = false → 2 ^ 255 ≤ s.scalar.toNat → exec (.wrCtrlStart x) s = .next { s with
      status := ⟨false, true, true, 1⟩, response := some .writeDone })

/-- 46_host_interface R208: the write to offset 0x004; bit 1 clears DONE, bit 2 clears ERR and ERRCODE, nothing else
changes, and in a legal state with an operation running nothing changes at all. -/
def Obligations.StatusWriteClearsByOnes : Prop :=
  ∀ v : Word, decodeAccess ⟨0x004, 32, .write 0xF v⟩ = .ok (.wrStatus v) ∧
    ∀ s : State,
      exec (.wrStatus v) s = .next { s with
        status := ⟨s.status.busy, s.status.done && !v.getLsbD 1, s.status.err && !v.getLsbD 2,
          if v.getLsbD 2 then 0 else s.status.errcode⟩,
        response := some .writeDone } ∧
      (s.Inv → s.status.busy = true → exec (.wrStatus v) s = .next { s with response := some .writeDone })

/-! ## Micro-operations -/

/-- 41_digit_encoder R106 on R101: the digits ENC writes in closed form, the carries, and the frame, for every
snapshot. -/
def Obligations.EncWritesTheClosedFormDigits : Prop :=
  ∀ s : State, ∃ E', exec .enc s = .next { s with
      E := E', upc := s.upc + 1, trace := s.trace ++ [⟨0x001, [.snapS], []⟩] } ∧
    (∀ i : Fin 64, digitAt E' i =
      (let b := s.snapS.toNat + ∑ j ∈ Finset.range 63, 8 * 16 ^ j
       if i.val < 63 then ((b / 16 ^ i.val % 16 : Nat) : Int) - 8 else ((b / 2 ^ 252 : Nat) : Int))) ∧
    (∀ i < 63, carryInto s.snapS (i + 1) =
      if s.snapS.toNat % 16 ^ (i + 1) ≥ 7 * (16 ^ (i + 1) - 1) / 15 + 1 then 1 else 0)

/-- 41_digit_encoder R104: under the precondition the digits are in range and their positional sum is the scalar. -/
def Obligations.DigitsAreInRangeAndSumToTheScalar : Prop :=
  ∀ a : BitVec 256, a.toNat < 2 ^ 255 →
    (∀ i : Fin 64, i.val < 63 → -8 ≤ digitAt (encodeDigits a) i ∧ digitAt (encodeDigits a) i ≤ 7) ∧
    (0 ≤ digitAt (encodeDigits a) 63 ∧ digitAt (encodeDigits a) 63 ≤ 8) ∧
    digitSum (encodeDigits a) = a.toNat

/-- 42_table_builder R120 to R123: the four table uops, for every k of the schedule, with their frames. -/
def Obligations.TableUopsHaveTheirEffects : Prop :=
  ∀ s : State,
    exec .tcache s = .next { s with
      TBL := s.TBL.set 0 (Config.pau.e2c s.snapA), upc := s.upc + 1,
      trace := s.trace ++ [⟨0x002, [.snapA], [.e2c]⟩] } ∧
    (∀ k : Fin 7, exec (.tadd (BitVec.ofNat 6 (k.val + 1))) s = .next { s with
      R := Config.pau.add s.snapA (s.TBL.get k.castSucc), upc := s.upc + 1,
      trace := s.trace ++ [⟨BitVec.ofNat 12 (16 * (k.val + 1) + 3), [.snapA, .TBL k.castSucc], [.add]⟩] }) ∧
    exec .c2e s = .next { s with
      H := Config.pau.c2e s.R, upc := s.upc + 1, trace := s.trace ++ [⟨0x004, [.R], [.c2e]⟩] } ∧
    (∀ k : Fin 7, exec (.te2c (BitVec.ofNat 6 (k.val + 1))) s = .next { s with
      TBL := s.TBL.set (k.val + 1) (Config.pau.e2c s.H), upc := s.upc + 1,
      trace := s.trace ++ [⟨BitVec.ofNat 12 (16 * (k.val + 1) + 5), [.H], [.e2c]⟩] })

/-- 44_evaluator R160, R162, R163, R165: ADDI, C2P, DBL and ADD, for every operand of the schedule, with their
frames. -/
def Obligations.EvaluatorUopsHaveTheirEffects : Prop :=
  ∀ s : State,
    exec .addi s = .next { s with
      R := Config.pau.add Config.pau.identityExt s.C, upc := s.upc + 1,
      trace := s.trace ++ [⟨0x007, [.C], [.add]⟩] } ∧
    (∀ j : Fin 4, exec (.c2p (BitVec.ofNat 2 j.val)) s = .next { s with
      S := Config.pau.c2p s.R, upc := s.upc + 1,
      trace := s.trace ++ [⟨BitVec.ofNat 12 (1024 * j.val + 8), [.R], [.c2p]⟩] }) ∧
    (∀ j : Fin 4, exec (.dbl (BitVec.ofNat 2 j.val)) s = .next { s with
      R := Config.pau.dbl s.S, upc := s.upc + 1,
      trace := s.trace ++ [⟨BitVec.ofNat 12 (1024 * j.val + 9), [.S], [.dbl]⟩] }) ∧
    (∀ i : Fin 63, exec (.add (BitVec.ofNat 6 i.val)) s = .next { s with
      R := Config.pau.add s.H s.C, upc := s.upc + 1,
      trace := s.trace ++ [⟨BitVec.ofNat 12 (16 * i.val + 10), [.H, .C], [.add]⟩] })

/-- 44_evaluator R169: FIN writes RESULT, clears BUSY, sets DONE, and leaves ERR, ERRCODE, upc and the rest. -/
def Obligations.FinWritesTheResult : Prop :=
  ∀ s : State, exec .fin s = .next { s with
    result := Config.pau.c2e s.R,
    status := ⟨false, true, s.status.err, s.status.errcode⟩,
    trace := s.trace ++ [⟨0x00B, [.R], [.c2e]⟩] }

/-- 43_selector R148, 93 U3: for every digit index and every stored digit, SEL writes the selected multiple into C,
reads E[i] and all of TBL whatever the digit, makes one feNeg request, and changes nothing else. -/
def Obligations.SelWritesTheSelectedMultiple : Prop :=
  ∀ (s : State) (i : BitVec 6), exec (.sel i) s = .next { s with
    C := selectedMultiple Config.pau s.TBL (digitAt s.E i.toFin), upc := s.upc + 1,
    trace := s.trace ++ [⟨BitVec.ofNat 12 (16 * i.toNat + 6),
      [.E i, .TBL 0, .TBL 1, .TBL 2, .TBL 3, .TBL 4, .TBL 5, .TBL 6, .TBL 7], [.feNeg]⟩] }

/-- 43_selector R149: under the laws and with the table of R125, `den C = b · den A`, and the selection for -k is the
exact negation of the entry for k. -/
def Obligations.SelectionDenotesTheDigitMultiple : Prop :=
  ∀ (G : Type) [AddCommGroup G] (D : Denotation G), PauLaws Config.pau D →
    ∀ (s : State) (i : BitVec 6) (g : G),
      (∀ k : Fin 8, D.okCached (s.TBL.get k) ∧ D.cached (s.TBL.get k) = (k.val + 1) • g) →
      -8 ≤ digitAt s.E i.toFin → digitAt s.E i.toFin ≤ 8 →
        ∃ t, exec (.sel i) s = .next t ∧ D.cached t.C = digitAt s.E i.toFin • g ∧
          ∀ k : Fin 8,
            (digitAt s.E i.toFin = k.val + 1 → t.C = s.TBL.get k) ∧
            (digitAt s.E i.toFin = -(k.val + 1) → t.C = negCached Config.pau (s.TBL.get k))

/-- 43_selector R141, R142: the sign bit and the magnitude of every stored digit. -/
def Obligations.SignAndMagnitudeOfADigit : Prop :=
  ∀ b : Digit, digitSign b = (if b.toInt < 0 then 1 else 0) ∧ (digitAbs b).toInt = |b.toInt|

/-- 43_selector R145: the masked select. -/
def Obligations.MaskedSelectChoosesByTheMask : Prop :=
  ∀ f g : Fe, cmov f g (BitVec.allOnes 256) = g ∧ cmov f g 0 = f

/-- 30_encoding R86 (log 11, the model's choice): a uop whose operand is outside its range is a fault. -/
def Obligations.OutOfRangeUopIsAFault : Prop :=
  ∀ s : State,
    (∀ k : BitVec 6, k = 0 ∨ 8 ≤ k.toNat → exec (.tadd k) s = .fault (.reservedUop (uopWord 0 k 3))) ∧
    (∀ k : BitVec 6, k = 0 ∨ 8 ≤ k.toNat → exec (.te2c k) s = .fault (.reservedUop (uopWord 0 k 5))) ∧
    exec (.add 63) s = .fault (.reservedUop 0x3FA)

/-! ## The schedule -/

/-- 95_test_vectors T32: the schedule's first 36 words and its last 14. -/
def Obligations.ScheduleWordsOfTheSpec : Prop :=
  (List.range 36).map sched =
    [0x001, 0x002, 0x013, 0x004, 0x015, 0x023, 0x004, 0x025, 0x033, 0x004, 0x035, 0x043,
     0x004, 0x045, 0x053, 0x004, 0x055, 0x063, 0x004, 0x065, 0x073, 0x004, 0x075, 0x3F6,
     0x007, 0x008, 0x009, 0x408, 0x409, 0x808, 0x809, 0xC08, 0xC09, 0x004, 0x3E6, 0x3EA].map some ∧
  (List.range' 705 14).map sched =
    [0x016, 0x01A, 0x008, 0x009, 0x408, 0x409, 0x808, 0x809, 0xC08, 0xC09, 0x004, 0x006, 0x00A, 0x00B].map some

/-- 30_encoding R88: the schedule holds only well-formed uops, 719 of them, and nothing past them. -/
def Obligations.ScheduleHoldsOnlyWellFormedUops : Prop :=
  (∀ n < 719, ∃ w i, sched n = some w ∧ decodeUop w = .ok i ∧ i.wf = true) ∧
  (∀ n ≥ 719, sched n = none)

/-- 45_sequencer R185: the counts of uops and of PAU requests in the fixed trace. -/
def Obligations.FixedTraceCounts : Prop :=
  fixedTrace.length = 719 ∧
  (fixedTrace.map fun e => e.pau.count .add).sum = 71 ∧
  (fixedTrace.map fun e => e.pau.count .dbl).sum = 252 ∧
  (fixedTrace.map fun e => e.pau.count .c2p).sum = 252 ∧
  (fixedTrace.map fun e => e.pau.count .c2e).sum = 71 ∧
  (fixedTrace.map fun e => e.pau.count .e2c).sum = 8 ∧
  (fixedTrace.map fun e => e.pau.count .feNeg).sum = 64 ∧
  (fixedTrace.countP fun e => e.word.extractLsb' 0 4 == 0x6) = 64 ∧
  (fixedTrace.countP fun e => e.word.extractLsb' 0 4 == 0x1) = 1

/-- 70_reset R250: the cycles of an operation, as the sum over its fixed trace. -/
def Obligations.OperationCyclesSum : Prop :=
  cyclesOf fixedTrace = Config.tFixed + Config.lat .enc + 8 * Config.lat .e2c + 71 * Config.lat .add +
    71 * Config.lat .c2e + 252 * Config.lat .c2p + 252 * Config.lat .dbl + 64 * Config.lat .sel

/-! ## Invariants -/

/-- 10_state R23, R40, R41: the state after reset is legal. -/
def Obligations.ResetStateIsLegal : Prop :=
  State.reset.Inv

/-- 10_state R23, R29, R40, 46_host_interface R206: every step keeps the legal states: the STATUS combinations of
R23, `upc` in range while running, a running scalar within the precondition and its digits. -/
def Obligations.StepKeepsTheLegalStates : Prop :=
  ∀ s t : State, s.Inv → step s = .next t → t.Inv

/-- 60_exceptions R222: in a legal state no turn stops the machine, whatever its access, uop or reset. -/
def Obligations.LegalStatesNeverStop : Prop :=
  ∀ s : State, s.Inv → s.Safe

/-- 10_state R35, 45_sequencer R189: a host access always completes; it writes no register a running operation reads,
no digit, table entry or point register ever, and it emits no event. -/
def Obligations.HostAccessLeavesTheInternals : Prop :=
  ∀ (s : State) (a : Access), ∃ t, hostTurn a s = .next t ∧
    t.E = s.E ∧ t.TBL = s.TBL ∧ t.R = s.R ∧ t.S = s.S ∧ t.H = s.H ∧ t.C = s.C ∧
    t.result = s.result ∧ t.trace = s.trace ∧ t.turns = s.turns ∧
    (s.status.busy = true → sameInternals s t ∧ t.status.busy = true)

/-- 10_state R26: RESULT changes only in the step of FIN and at reset. -/
def Obligations.ResultChangesOnlyAtFinOrReset : Prop :=
  ∀ s t : State, step s = .next t → t.result ≠ s.result →
    (∃ l rest, s.turns = .reset l :: rest) ∨
    (s.status.busy = true ∧ s.upc = 718 ∧ t.result = Config.pau.c2e s.R ∧
      t.status.busy = false ∧ t.status.done = true)

/-- 10_state R24, R25, 92 D31: the block itself never changes SCALAR or BASE; only a host write or reset does. -/
def Obligations.SequencerKeepsScalarAndBase : Prop :=
  ∀ s t : State, sequencerTurn s = .next t → t.scalar = s.scalar ∧ t.base = s.base

/-- 20_memory R76: the running operation does not read SCALAR or BASE. -/
def Obligations.RunningOperationIgnoresTheInputRegisters : Prop :=
  ∀ (s t : State) (v : BitVec 256) (p : ExtPoint), sequencerTurn s = .next t →
    sequencerTurn { s with scalar := v, base := p } = .next { t with scalar := v, base := p }

/-- 60_exceptions R225: while an operation runs and its next uop is not FIN, a host access and the uop give the same
state in either order. -/
def Obligations.AccessAndUopCommuteBeforeFin : Prop :=
  ∀ (s t u : State) (a : Access), s.status.busy = true → s.upc.toNat < 718 →
    sequencerTurn s = .next t → hostTurn a s = .next u →
      ∃ v, hostTurn a t = .next v ∧ sequencerTurn u = .next v

/-! ## Whole operations -/

/-- 45_sequencer R190, R191: an accepted operation is busy for 719 sequencer steps and then done, with no error. (The
sequencer goes on by itself with no turn listed, log 5.) -/
def Obligations.AcceptedOperationEndsAfter719Uops : Prop :=
  ∀ s : State, s.Inv → s.status.busy = false → s.scalar.toNat < 2 ^ 255 → s.turns = [go] →
    (∀ n, 1 ≤ n → n ≤ 719 → ∃ t, runSteps n s = .next t ∧ t.status = ⟨true, false, false, 0⟩) ∧
    (∃ t, runSteps 720 s = .next t ∧ t.status = ⟨false, true, false, 0⟩ ∧ t.turns = [])

/-- 45_sequencer R186, R190, 46_host_interface R206: a rejected START runs no uop: from then on STATUS reads 0x16,
nothing is observed, and every register but STATUS keeps its value. (That the idle block with no turn left goes on
answering its own state is the model's choice, log 5; the rules give it no step.) -/
def Obligations.RejectedStartRunsNoUop : Prop :=
  ∀ (s : State) (n : Nat), s.Inv → s.status.busy = false → 2 ^ 255 ≤ s.scalar.toNat → s.turns = [go] →
    runSteps (n + 1) s = .next { s with
      status := ⟨false, true, true, 1⟩, response := some .writeDone, turns := [] }

/-- 45_sequencer R184: from an accepted START on, in every interleaving with host accesses, the events are exactly
`fixedTrace`, whatever the scalar and the base. -/
def Obligations.OperationTraceIsFixed : Prop :=
  ∀ (s : State) (l rest : List Turn), s.Inv → s.status.busy = false → s.scalar.toNat < 2 ^ 255 →
    operationTurns l → s.turns = go :: (l ++ rest) →
      ∃ t, runSteps (l.length + 1) s = .next t ∧ t.trace = s.trace ++ fixedTrace ∧ t.turns = rest

/-- 45_sequencer R188, R189: in every interleaving with host accesses, if the PAU satisfies the laws, RESULT denotes
`a · den A` for the scalar and the base the registers held at START. (`PauLaws` states "on the values of this operation"
as predicates that the PAU's functions do not leave.) -/
def Obligations.ResultIsTheScalarMultiple : Prop :=
  ∀ (G : Type) [AddCommGroup G] (D : Denotation G), PauLaws Config.pau D →
    ∀ (s : State) (l rest : List Turn), s.Inv → s.status.busy = false → s.scalar.toNat < 2 ^ 255 →
      D.okExt s.base → operationTurns l → s.turns = go :: (l ++ rest) →
        ∃ t, runSteps (l.length + 1) s = .next t ∧ D.ext t.result = s.scalar.toNat • D.ext s.base

/-- 44_evaluator R167: the accumulator at each point of the evaluation, and the carry in the partial value. (The
sequencer goes on by itself with no turn listed, log 5; `StepKeepsThePartialMultiple` has every turn.) -/
def Obligations.AccumulatorHoldsThePartialMultiple : Prop :=
  ∀ (G : Type) [AddCommGroup G] (D : Denotation G), PauLaws Config.pau D →
    ∀ s : State, s.AtFirstUop → s.turns = [] → D.okExt s.snapA →
      let V := digitsFrom (encodeDigits s.snapS)
      (∃ t, runSteps 25 s = .next t ∧ D.compl t.R = V 63 • D.ext s.snapA) ∧
      (∀ i ≤ 62,
        (∃ t, runSteps (25 + 11 * (62 - i)) s = .next t ∧ D.compl t.R = V (i + 1) • D.ext s.snapA) ∧
        (∀ j < 4, ∃ t, runSteps (25 + 11 * (62 - i) + 2 * j + 2) s = .next t ∧
          D.compl t.R = (2 ^ (j + 1) * V (i + 1)) • D.ext s.snapA) ∧
        (∃ t, runSteps (36 + 11 * (62 - i)) s = .next t ∧ D.compl t.R = V i • D.ext s.snapA)) ∧
      (∀ k ≤ 63, V k = (s.snapS.toNat / 16 ^ k : Nat) + carryInto s.snapS k)

/-- 42_table_builder R125: after the table build, entry k denotes (k+1) times the base. (The sequencer goes on by itself
with no turn listed, log 5; all the laws are assumed, where R125 asks for L1 and L2 only.
`StepKeepsThePartialMultiple` has every turn.) -/
def Obligations.TableHoldsTheMultiples : Prop :=
  ∀ (G : Type) [AddCommGroup G] (D : Denotation G), PauLaws Config.pau D →
    ∀ s : State, s.AtFirstUop → s.turns = [] → D.okExt s.snapA →
      ∃ t, runSteps 23 s = .next t ∧ ∀ k : Fin 8, D.cached (t.TBL.get k) = (k.val + 1) • D.ext s.snapA

/-- 42_table_builder R126: the table and the builder's events are the same for any two scalars. (The sequencer goes on
by itself with no turn listed, log 5.) -/
def Obligations.TableDoesNotDependOnTheScalar : Prop :=
  ∀ s s' : State, s.AtFirstUop → s'.AtFirstUop → s.turns = [] → s'.turns = [] → s.snapA = s'.snapA →
    ∃ t t' evs, runSteps 23 s = .next t ∧ runSteps 23 s' = .next t' ∧ t.TBL = t'.TBL ∧
      t.trace = s.trace ++ evs ∧ t'.trace = s'.trace ++ evs

/-- 10_state R35: no operation reads a value left by an earlier operation or by reset, so the result depends on the
two snapshots alone (this is what makes the model's reset values of log 1 harmless). The two runs have no turn listed,
where the sequencer goes on by itself (log 5); interleavings with host accesses are left to
`HostAccessLeavesTheInternals` and `AccessAndUopCommuteBeforeFin`. -/
def Obligations.ResultDependsOnTheSnapshotsOnly : Prop :=
  ∀ s s' : State, s.AtFirstUop → s'.AtFirstUop → s.turns = [] → s'.turns = [] →
    s.snapS = s'.snapS → s.snapA = s'.snapA →
      ∃ t t', runSteps 719 s = .next t ∧ runSteps 719 s' = .next t' ∧ t.result = t'.result ∧
        t.E = t'.E ∧ t.TBL = t'.TBL ∧ t.R = t'.R ∧ t.S = t'.S ∧ t.H = t'.H ∧ t.C = t'.C

/-- 45_sequencer R183, R184: while an operation runs, its events so far are the first `upc` of `fixedTrace`: every step
keeps that, whatever its turn, and the step of FIN completes them. -/
def Obligations.StepKeepsTheTraceOnSchedule : Prop :=
  ∀ s t : State, s.Inv → s.TraceOnSchedule → step s = .next t →
    t.TraceOnSchedule ∧
    (s.status.busy = true → t.status.busy = false → (∀ l rest, s.turns ≠ .reset l :: rest) →
      fixedTrace <:+ t.trace)

/-- 42_table_builder R125, 44_evaluator R167, 45_sequencer R188: under the laws every step, whatever its turn, keeps what
the table, the accumulator and the temporaries denote at `upc`, and the step of FIN leaves `a · den A` in RESULT. The base
an idle block may take at a START is one the laws hold of (00_scope R10, L6). -/
def Obligations.StepKeepsThePartialMultiple : Prop :=
  ∀ (G : Type) [AddCommGroup G] (D : Denotation G), PauLaws Config.pau D →
    ∀ s t : State, s.Inv → (s.status.busy = true → s.OnMultiples D) → (s.status.busy = false → D.okExt s.base) →
      step s = .next t →
        (t.status.busy = true → t.OnMultiples D) ∧
        (s.status.busy = true → t.status.busy = false → (∀ l rest, s.turns ≠ .reset l :: rest) →
          D.ext t.result = s.snapS.toNat • D.ext s.snapA)

/-! ## The window and the host's driver -/

/-- 20_memory R61: BASE_ADDR is a multiple of 0x200, and the offset of an address in the window is its low nine
bits. -/
def Obligations.WindowOffsetIsTheLowNineBits : Prop :=
  Config.baseAddr % 0x200 = 0 ∧
  ∀ addr : Nat,
    (Config.baseAddr ≤ addr → addr < Config.baseAddr + 0x200 →
      windowOffset addr = some (BitVec.ofNat 9 addr)) ∧
    (addr < Config.baseAddr ∨ Config.baseAddr + 0x200 ≤ addr → windowOffset addr = none)

/-- 30_encoding R91: LDSCALAR leaves the scalar in SCALAR and changes nothing else. -/
def Obligations.LoadScalarSequenceLoadsTheScalar : Prop :=
  ∀ (s : State) (v : BitVec 256) (rest : List Turn), s.status.errcode.toNat ≤ 1 → s.turns = ldScalar v ++ rest →
    runSteps 8 s = .next { s with scalar := v, response := some .writeDone, turns := rest }

/-- 30_encoding R91: LDBASE leaves the point in BASE and changes nothing else. -/
def Obligations.LoadBaseSequenceLoadsTheBase : Prop :=
  ∀ (s : State) (p : ExtPoint) (rest : List Turn), s.status.errcode.toNat ≤ 1 → s.turns = ldBase p ++ rest →
    runSteps 32 s = .next { s with base := p, response := some .writeDone, turns := rest }

/-- 30_encoding R91: the n-th read of RDRES answers the n-th word of RESULT, X first, least significant word first. -/
def Obligations.ReadResultSequenceReadsTheResult : Prop :=
  ∀ (s : State) (rest : List Turn), s.status.errcode.toNat ≤ 1 → s.turns = rdRes ++ rest →
    ∀ n < 32, ∃ t, runSteps (n + 1) s = .next t ∧ t.response = some (.readData (BitVec.ofNat 32
      ((coordNumbered s.result (n / 8)).toNat / 2 ^ (32 * (n % 8)))))
end

