-- ==== Sys2Proof/Laws/State.lean ====
section
/-! SUPPORT. One lemma per field per update of State: what each shared operation does to each field. -/

namespace Sys2Proof.Machine

/-! ### `respond` -/

@[simp] theorem respond_status (r : Response) (s : State) : (respond r s).status = s.status := rfl
@[simp] theorem respond_scalar (r : Response) (s : State) : (respond r s).scalar = s.scalar := rfl
@[simp] theorem respond_base (r : Response) (s : State) : (respond r s).base = s.base := rfl
@[simp] theorem respond_result (r : Response) (s : State) : (respond r s).result = s.result := rfl
@[simp] theorem respond_snapS (r : Response) (s : State) : (respond r s).snapS = s.snapS := rfl
@[simp] theorem respond_snapA (r : Response) (s : State) : (respond r s).snapA = s.snapA := rfl
@[simp] theorem respond_E (r : Response) (s : State) : (respond r s).E = s.E := rfl
@[simp] theorem respond_TBL (r : Response) (s : State) : (respond r s).TBL = s.TBL := rfl
@[simp] theorem respond_R (r : Response) (s : State) : (respond r s).R = s.R := rfl
@[simp] theorem respond_S (r : Response) (s : State) : (respond r s).S = s.S := rfl
@[simp] theorem respond_H (r : Response) (s : State) : (respond r s).H = s.H := rfl
@[simp] theorem respond_C (r : Response) (s : State) : (respond r s).C = s.C := rfl
@[simp] theorem respond_upc (r : Response) (s : State) : (respond r s).upc = s.upc := rfl
@[simp] theorem respond_trace (r : Response) (s : State) : (respond r s).trace = s.trace := rfl
@[simp] theorem respond_response (r : Response) (s : State) : (respond r s).response = some r := rfl
@[simp] theorem respond_turns (r : Response) (s : State) : (respond r s).turns = s.turns := rfl

/-! ### `advance` -/

@[simp] theorem advance_status (s : State) : (advance s).status = s.status := rfl
@[simp] theorem advance_scalar (s : State) : (advance s).scalar = s.scalar := rfl
@[simp] theorem advance_base (s : State) : (advance s).base = s.base := rfl
@[simp] theorem advance_result (s : State) : (advance s).result = s.result := rfl
@[simp] theorem advance_snapS (s : State) : (advance s).snapS = s.snapS := rfl
@[simp] theorem advance_snapA (s : State) : (advance s).snapA = s.snapA := rfl
@[simp] theorem advance_E (s : State) : (advance s).E = s.E := rfl
@[simp] theorem advance_TBL (s : State) : (advance s).TBL = s.TBL := rfl
@[simp] theorem advance_R (s : State) : (advance s).R = s.R := rfl
@[simp] theorem advance_S (s : State) : (advance s).S = s.S := rfl
@[simp] theorem advance_H (s : State) : (advance s).H = s.H := rfl
@[simp] theorem advance_C (s : State) : (advance s).C = s.C := rfl
@[simp] theorem advance_upc (s : State) : (advance s).upc = s.upc + 1 := rfl
@[simp] theorem advance_trace (s : State) : (advance s).trace = s.trace := rfl
@[simp] theorem advance_response (s : State) : (advance s).response = s.response := rfl
@[simp] theorem advance_turns (s : State) : (advance s).turns = s.turns := rfl

/-! ### `accept` -/

@[simp] theorem accept_status (s : State) : (accept s).status = flagsOnAccept s.status := rfl
@[simp] theorem accept_scalar (s : State) : (accept s).scalar = s.scalar := rfl
@[simp] theorem accept_base (s : State) : (accept s).base = s.base := rfl
@[simp] theorem accept_result (s : State) : (accept s).result = s.result := rfl
@[simp] theorem accept_snapS (s : State) : (accept s).snapS = s.scalar := rfl
@[simp] theorem accept_snapA (s : State) : (accept s).snapA = s.base := rfl
@[simp] theorem accept_E (s : State) : (accept s).E = s.E := rfl
@[simp] theorem accept_TBL (s : State) : (accept s).TBL = s.TBL := rfl
@[simp] theorem accept_R (s : State) : (accept s).R = s.R := rfl
@[simp] theorem accept_S (s : State) : (accept s).S = s.S := rfl
@[simp] theorem accept_H (s : State) : (accept s).H = s.H := rfl
@[simp] theorem accept_C (s : State) : (accept s).C = s.C := rfl
@[simp] theorem accept_upc (s : State) : (accept s).upc = 0 := rfl
@[simp] theorem accept_trace (s : State) : (accept s).trace = s.trace := rfl
@[simp] theorem accept_response (s : State) : (accept s).response = s.response := rfl
@[simp] theorem accept_turns (s : State) : (accept s).turns = s.turns := rfl

/-! ### `raiseError_scalarRange` -/

@[simp] theorem raiseError_scalarRange_status (s : State) : (raiseError .scalarRange s).status = flagsOnScalarRange s.status := rfl
@[simp] theorem raiseError_scalarRange_scalar (s : State) : (raiseError .scalarRange s).scalar = s.scalar := rfl
@[simp] theorem raiseError_scalarRange_base (s : State) : (raiseError .scalarRange s).base = s.base := rfl
@[simp] theorem raiseError_scalarRange_result (s : State) : (raiseError .scalarRange s).result = s.result := rfl
@[simp] theorem raiseError_scalarRange_snapS (s : State) : (raiseError .scalarRange s).snapS = s.snapS := rfl
@[simp] theorem raiseError_scalarRange_snapA (s : State) : (raiseError .scalarRange s).snapA = s.snapA := rfl
@[simp] theorem raiseError_scalarRange_E (s : State) : (raiseError .scalarRange s).E = s.E := rfl
@[simp] theorem raiseError_scalarRange_TBL (s : State) : (raiseError .scalarRange s).TBL = s.TBL := rfl
@[simp] theorem raiseError_scalarRange_R (s : State) : (raiseError .scalarRange s).R = s.R := rfl
@[simp] theorem raiseError_scalarRange_S (s : State) : (raiseError .scalarRange s).S = s.S := rfl
@[simp] theorem raiseError_scalarRange_H (s : State) : (raiseError .scalarRange s).H = s.H := rfl
@[simp] theorem raiseError_scalarRange_C (s : State) : (raiseError .scalarRange s).C = s.C := rfl
@[simp] theorem raiseError_scalarRange_upc (s : State) : (raiseError .scalarRange s).upc = s.upc := rfl
@[simp] theorem raiseError_scalarRange_trace (s : State) : (raiseError .scalarRange s).trace = s.trace := rfl
@[simp] theorem raiseError_scalarRange_response (s : State) : (raiseError .scalarRange s).response = s.response := rfl
@[simp] theorem raiseError_scalarRange_turns (s : State) : (raiseError .scalarRange s).turns = s.turns := rfl

/-! ### `raiseError_busError` -/

@[simp] theorem raiseError_busError_status (off : BitVec 9) (s : State) : (raiseError (.busError off) s).status = s.status := rfl
@[simp] theorem raiseError_busError_scalar (off : BitVec 9) (s : State) : (raiseError (.busError off) s).scalar = s.scalar := rfl
@[simp] theorem raiseError_busError_base (off : BitVec 9) (s : State) : (raiseError (.busError off) s).base = s.base := rfl
@[simp] theorem raiseError_busError_result (off : BitVec 9) (s : State) : (raiseError (.busError off) s).result = s.result := rfl
@[simp] theorem raiseError_busError_snapS (off : BitVec 9) (s : State) : (raiseError (.busError off) s).snapS = s.snapS := rfl
@[simp] theorem raiseError_busError_snapA (off : BitVec 9) (s : State) : (raiseError (.busError off) s).snapA = s.snapA := rfl
@[simp] theorem raiseError_busError_E (off : BitVec 9) (s : State) : (raiseError (.busError off) s).E = s.E := rfl
@[simp] theorem raiseError_busError_TBL (off : BitVec 9) (s : State) : (raiseError (.busError off) s).TBL = s.TBL := rfl
@[simp] theorem raiseError_busError_R (off : BitVec 9) (s : State) : (raiseError (.busError off) s).R = s.R := rfl
@[simp] theorem raiseError_busError_S (off : BitVec 9) (s : State) : (raiseError (.busError off) s).S = s.S := rfl
@[simp] theorem raiseError_busError_H (off : BitVec 9) (s : State) : (raiseError (.busError off) s).H = s.H := rfl
@[simp] theorem raiseError_busError_C (off : BitVec 9) (s : State) : (raiseError (.busError off) s).C = s.C := rfl
@[simp] theorem raiseError_busError_upc (off : BitVec 9) (s : State) : (raiseError (.busError off) s).upc = s.upc := rfl
@[simp] theorem raiseError_busError_trace (off : BitVec 9) (s : State) : (raiseError (.busError off) s).trace = s.trace := rfl
@[simp] theorem raiseError_busError_response (off : BitVec 9) (s : State) : (raiseError (.busError off) s).response = some (.busError off) := rfl
@[simp] theorem raiseError_busError_turns (off : BitVec 9) (s : State) : (raiseError (.busError off) s).turns = s.turns := rfl

/-! ### `clearByStatusWrite` -/

@[simp] theorem clearByStatusWrite_status (v : Word) (s : State) : (clearByStatusWrite v s).status = writeStatus s.status v := rfl
@[simp] theorem clearByStatusWrite_scalar (v : Word) (s : State) : (clearByStatusWrite v s).scalar = s.scalar := rfl
@[simp] theorem clearByStatusWrite_base (v : Word) (s : State) : (clearByStatusWrite v s).base = s.base := rfl
@[simp] theorem clearByStatusWrite_result (v : Word) (s : State) : (clearByStatusWrite v s).result = s.result := rfl
@[simp] theorem clearByStatusWrite_snapS (v : Word) (s : State) : (clearByStatusWrite v s).snapS = s.snapS := rfl
@[simp] theorem clearByStatusWrite_snapA (v : Word) (s : State) : (clearByStatusWrite v s).snapA = s.snapA := rfl
@[simp] theorem clearByStatusWrite_E (v : Word) (s : State) : (clearByStatusWrite v s).E = s.E := rfl
@[simp] theorem clearByStatusWrite_TBL (v : Word) (s : State) : (clearByStatusWrite v s).TBL = s.TBL := rfl
@[simp] theorem clearByStatusWrite_R (v : Word) (s : State) : (clearByStatusWrite v s).R = s.R := rfl
@[simp] theorem clearByStatusWrite_S (v : Word) (s : State) : (clearByStatusWrite v s).S = s.S := rfl
@[simp] theorem clearByStatusWrite_H (v : Word) (s : State) : (clearByStatusWrite v s).H = s.H := rfl
@[simp] theorem clearByStatusWrite_C (v : Word) (s : State) : (clearByStatusWrite v s).C = s.C := rfl
@[simp] theorem clearByStatusWrite_upc (v : Word) (s : State) : (clearByStatusWrite v s).upc = s.upc := rfl
@[simp] theorem clearByStatusWrite_trace (v : Word) (s : State) : (clearByStatusWrite v s).trace = s.trace := rfl
@[simp] theorem clearByStatusWrite_response (v : Word) (s : State) : (clearByStatusWrite v s).response = s.response := rfl
@[simp] theorem clearByStatusWrite_turns (v : Word) (s : State) : (clearByStatusWrite v s).turns = s.turns := rfl

/-! ### `resetInput` -/

@[simp] theorem resetInput_status (s : State) : (resetInput s).status = State.reset.status := rfl
@[simp] theorem resetInput_scalar (s : State) : (resetInput s).scalar = State.reset.scalar := rfl
@[simp] theorem resetInput_base (s : State) : (resetInput s).base = State.reset.base := rfl
@[simp] theorem resetInput_result (s : State) : (resetInput s).result = State.reset.result := rfl
@[simp] theorem resetInput_snapS (s : State) : (resetInput s).snapS = State.reset.snapS := rfl
@[simp] theorem resetInput_snapA (s : State) : (resetInput s).snapA = State.reset.snapA := rfl
@[simp] theorem resetInput_E (s : State) : (resetInput s).E = State.reset.E := rfl
@[simp] theorem resetInput_TBL (s : State) : (resetInput s).TBL = State.reset.TBL := rfl
@[simp] theorem resetInput_R (s : State) : (resetInput s).R = State.reset.R := rfl
@[simp] theorem resetInput_S (s : State) : (resetInput s).S = State.reset.S := rfl
@[simp] theorem resetInput_H (s : State) : (resetInput s).H = State.reset.H := rfl
@[simp] theorem resetInput_C (s : State) : (resetInput s).C = State.reset.C := rfl
@[simp] theorem resetInput_upc (s : State) : (resetInput s).upc = State.reset.upc := rfl
@[simp] theorem resetInput_trace (s : State) : (resetInput s).trace = s.trace := rfl
@[simp] theorem resetInput_response (s : State) : (resetInput s).response = State.reset.response := rfl
@[simp] theorem resetInput_turns (s : State) : (resetInput s).turns = s.turns := rfl

/-! ### A uop in progress: every write keeps the other registers, every read and request keeps the state -/

@[simp] theorem Act.writeE_st (v : Vector Digit 64) (u : Act) : (u.writeE v).st = { u.st with E := v } := rfl
@[simp] theorem Act.writeE_reads (v : Vector Digit 64) (u : Act) : (u.writeE v).reads = u.reads := rfl
@[simp] theorem Act.writeE_pau (v : Vector Digit 64) (u : Act) : (u.writeE v).pau = u.pau := rfl
@[simp] theorem Act.writeTBL_st (k : Fin 8) (v : CachedPoint) (u : Act) : (u.writeTBL k v).st = { u.st with TBL := u.st.TBL.set k.val v } := rfl
@[simp] theorem Act.writeTBL_reads (k : Fin 8) (v : CachedPoint) (u : Act) : (u.writeTBL k v).reads = u.reads := rfl
@[simp] theorem Act.writeTBL_pau (k : Fin 8) (v : CachedPoint) (u : Act) : (u.writeTBL k v).pau = u.pau := rfl
@[simp] theorem Act.writeR_st (v : ComplPoint) (u : Act) : (u.writeR v).st = { u.st with R := v } := rfl
@[simp] theorem Act.writeR_reads (v : ComplPoint) (u : Act) : (u.writeR v).reads = u.reads := rfl
@[simp] theorem Act.writeR_pau (v : ComplPoint) (u : Act) : (u.writeR v).pau = u.pau := rfl
@[simp] theorem Act.writeS_st (v : ProjPoint) (u : Act) : (u.writeS v).st = { u.st with S := v } := rfl
@[simp] theorem Act.writeS_reads (v : ProjPoint) (u : Act) : (u.writeS v).reads = u.reads := rfl
@[simp] theorem Act.writeS_pau (v : ProjPoint) (u : Act) : (u.writeS v).pau = u.pau := rfl
@[simp] theorem Act.writeH_st (v : ExtPoint) (u : Act) : (u.writeH v).st = { u.st with H := v } := rfl
@[simp] theorem Act.writeH_reads (v : ExtPoint) (u : Act) : (u.writeH v).reads = u.reads := rfl
@[simp] theorem Act.writeH_pau (v : ExtPoint) (u : Act) : (u.writeH v).pau = u.pau := rfl
@[simp] theorem Act.writeC_st (v : CachedPoint) (u : Act) : (u.writeC v).st = { u.st with C := v } := rfl
@[simp] theorem Act.writeC_reads (v : CachedPoint) (u : Act) : (u.writeC v).reads = u.reads := rfl
@[simp] theorem Act.writeC_pau (v : CachedPoint) (u : Act) : (u.writeC v).pau = u.pau := rfl
@[simp] theorem Act.writeResult_st (v : ExtPoint) (u : Act) : (u.writeResult v).st = { u.st with result := v } := rfl
@[simp] theorem Act.writeResult_reads (v : ExtPoint) (u : Act) : (u.writeResult v).reads = u.reads := rfl
@[simp] theorem Act.writeResult_pau (v : ExtPoint) (u : Act) : (u.writeResult v).pau = u.pau := rfl
@[simp] theorem Act.writeStatus_st (v : Status) (u : Act) : (u.writeStatus v).st = { u.st with status := v } := rfl
@[simp] theorem Act.writeStatus_reads (v : Status) (u : Act) : (u.writeStatus v).reads = u.reads := rfl
@[simp] theorem Act.writeStatus_pau (v : Status) (u : Act) : (u.writeStatus v).pau = u.pau := rfl
@[simp] theorem Act.noteRead_st (u : Act) (r : IReg) : (u.noteRead r).st = u.st := rfl
@[simp] theorem Act.noteRead_reads (u : Act) (r : IReg) : (u.noteRead r).reads = u.reads ++ [r] := rfl
@[simp] theorem Act.noteRead_pau (u : Act) (r : IReg) : (u.noteRead r).pau = u.pau := rfl
@[simp] theorem Act.notePau_st (u : Act) (q : PauReq) : (u.notePau q).st = u.st := rfl
@[simp] theorem Act.notePau_reads (u : Act) (q : PauReq) : (u.notePau q).reads = u.reads := rfl
@[simp] theorem Act.notePau_pau (u : Act) (q : PauReq) : (u.notePau q).pau = u.pau ++ [q] := rfl

end Sys2Proof.Machine
end

