-- ==== Sys2Proof/Laws/Step.lean ====
section
/-! SUPPORT. What one step can be, said once: by the next turn, and inverted. -/

namespace Sys2Proof.Machine

theorem checkErrcode_legal {s : State} (h : s.status.errcode.toNat ≤ 1) (o : Outcome) : checkErrcode s o = o :=
  if_pos h

theorem step_of_host {s : State} {a : Access} {rest : List Turn} (ht : s.turns = .host a :: rest)
    (he : s.status.errcode.toNat ≤ 1) : step s = hostTurn a { s with turns := rest } := by
  simp only [step, nextTurn, ht, checkErrcode_legal he]

theorem step_of_sequencer {s : State} {rest : List Turn} (ht : s.turns = .sequencer :: rest)
    (he : s.status.errcode.toNat ≤ 1) : step s = sequencerTurn { s with turns := rest } := by
  simp only [step, nextTurn, ht, checkErrcode_legal he]

theorem step_of_no_turn {s : State} (ht : s.turns = []) (he : s.status.errcode.toNat ≤ 1) :
    step s = sequencerTurn s := by
  simp only [step, nextTurn, ht, checkErrcode_legal he]

theorem step_of_reset {s : State} {l : Option Access} {rest : List Turn} (ht : s.turns = .reset l :: rest) :
    step s = .next (resetInput { s with turns := rest }) := by
  simp only [step, nextTurn, ht]

/-- Every step that goes on is one of four: a reset, a host access, a scheduled sequencer turn, or the sequencer
running on with no turn left; but for a reset, the state's ERRCODE is one the block produces. -/
theorem step_cases {s t : State} (h : step s = .next t) :
    (∃ l rest, s.turns = .reset l :: rest ∧ t = resetInput { s with turns := rest }) ∨
    (s.status.errcode.toNat ≤ 1 ∧
      ((∃ a rest, s.turns = .host a :: rest ∧ hostTurn a { s with turns := rest } = .next t) ∨
       (∃ rest, s.turns = .sequencer :: rest ∧ sequencerTurn { s with turns := rest } = .next t) ∨
       (s.turns = [] ∧ sequencerTurn s = .next t))) := by
  unfold step nextTurn at h
  split at h
  · next l rest ht => exact .inl ⟨l, rest, ht, by simpa using h.symm⟩
  all_goals
    unfold checkErrcode at h
    split at h
    · next ht he => exact .inr ⟨he, by simp_all⟩
    · cases h

/-- A running sequencer's turn is the uop the schedule has at `upc`. -/
theorem sequencerTurn_of_sched {s : State} {w : BitVec 12} {i : Instr} (hb : s.status.busy = true)
    (hw : sched s.upc.toNat = some w) (hi : decodeUop w = .ok i) : sequencerTurn s = exec i s := by
  simp only [sequencerTurn, hb, hw, hi, if_true]

theorem sequencerTurn_of_idle {s : State} (hb : s.status.busy = false) : sequencerTurn s = .next s := by
  simp [sequencerTurn, hb]

end Sys2Proof.Machine
end

