-- ==== Sys2Proof/Laws/Uops.lean ====
section
/-! SUPPORT. One lemma per uop: the whole next state. -/

namespace Sys2Proof.Machine

/-- What a uop leaves besides the registers it writes: its event, and the next position. -/
def logged (s : State) (e : Event) : State :=
  { s with trace := s.trace ++ [e], upc := s.upc + 1 }

theorem runEnc_eq (s : State) :
    runEnc s = logged { s with E := encodeDigits s.snapS } ⟨uopWord 0 0 1, [.snapS], []⟩ := by
  simp only [runEnc, Act.readSnapS, Act.writeE, Act.emit, advance, logged, Act.start, Act.noteRead, List.nil_append]

theorem runTcache_eq (P : Pau) (s : State) :
    runTcache P s = logged { s with TBL := s.TBL.set 0 (P.e2c s.snapA) } ⟨uopWord 0 0 2, [.snapA], [.e2c]⟩ := rfl

theorem runTadd_eq (P : Pau) (k : BitVec 6) (s : State) :
    runTadd P k s = logged { s with R := P.add s.snapA (s.TBL.get (tblIndex (k.toNat - 1))) }
      ⟨uopWord 0 k 3, [.snapA, .TBL (tblIndex (k.toNat - 1))], [.add]⟩ := rfl

theorem runC2e_eq (P : Pau) (s : State) :
    runC2e P s = logged { s with H := P.c2e s.R } ⟨uopWord 0 0 4, [.R], [.c2e]⟩ := rfl

theorem runTe2c_eq (P : Pau) (k : BitVec 6) (s : State) :
    runTe2c P k s = logged { s with TBL := s.TBL.set (tblIndex k.toNat).val (P.e2c s.H) }
      ⟨uopWord 0 k 5, [.H], [.e2c]⟩ := rfl

theorem runAddi_eq (P : Pau) (s : State) :
    runAddi P s = logged { s with R := P.add P.identityExt s.C } ⟨uopWord 0 0 7, [.C], [.add]⟩ := rfl

theorem runC2p_eq (P : Pau) (j : BitVec 2) (s : State) :
    runC2p P j s = logged { s with S := P.c2p s.R } ⟨uopWord j 0 8, [.R], [.c2p]⟩ := rfl

theorem runDbl_eq (P : Pau) (j : BitVec 2) (s : State) :
    runDbl P j s = logged { s with R := P.dbl s.S } ⟨uopWord j 0 9, [.S], [.dbl]⟩ := rfl

theorem runAdd_eq (P : Pau) (i : BitVec 6) (s : State) :
    runAdd P i s = logged { s with R := P.add s.H s.C } ⟨uopWord 0 i 10, [.H, .C], [.add]⟩ := rfl

theorem runFin_eq (P : Pau) (s : State) :
    runFin P s = { s with result := P.c2e s.R, status := flagsOnFin s.status,
                          trace := s.trace ++ [⟨uopWord 0 0 11, [.R], [.c2e]⟩] } := rfl

/-- The eight masked passes of SEL on a table, with the registers and requests left out. -/
def selected (P : Pau) (T : Vector CachedPoint 8) (b : Digit) : CachedPoint :=
  let t := [1, 2, 3, 4, 5, 6, 7, 8].foldl
    (fun t m => cmovCached t (T.get (tblIndex (m - 1))) (eqMask (digitAbs b) m)) (identityCached P)
  cmovCached t (negCached P t) (signMask (digitSign b))

theorem runSel_eq (P : Pau) (i : BitVec 6) (s : State) :
    runSel P i s = logged { s with C := selected P s.TBL (s.E.get i.toFin) }
      ⟨uopWord 0 i 6, [.E i, .TBL 0, .TBL 1, .TBL 2, .TBL 3, .TBL 4, .TBL 5, .TBL 6, .TBL 7], [.feNeg]⟩ := rfl

end Sys2Proof.Machine
end

