-- ==== Sys2Proof/Laws/Exec.lean ====
section
/-! SUPPORT. What START can do, which instructions a host access decodes to, and that host instructions and well-formed
uops complete. -/

namespace Sys2Proof.Machine

/-- START is ignored, accepted or rejected (46_host_interface R204). -/
theorem start_cases (s : State) :
    (s.status.busy = true ∧ start s = s) ∨
    (s.status.busy = false ∧ (getWord s.scalar 7).getLsbD 31 = false ∧
      start s = accept { s with status := clearForStart s.status }) ∨
    (s.status.busy = false ∧ (getWord s.scalar 7).getLsbD 31 = true ∧
      start s = raiseError .scalarRange { s with status := clearForStart s.status }) := by
  unfold start
  cases hb : s.status.busy
  · cases hs : (getWord s.scalar 7).getLsbD 31
    · exact .inr (.inl ⟨rfl, rfl, by simp only [hs, Bool.false_eq_true, if_false]⟩)
    · exact .inr (.inr ⟨rfl, rfl, by simp only [hs, Bool.false_eq_true, if_false, if_true]⟩)
  · exact .inl ⟨rfl, rfl⟩

/-- The micro-operations among the instructions. -/
def isUop : Instr → Bool
  | .enc | .tcache | .tadd _ | .c2e | .te2c _ | .sel _ | .addi | .c2p _ | .dbl _ | .add _ | .fin => true
  | .wrCtrlStart _ | .wrCtrlNop _ | .wrStatus _ | .wrScalar _ _ | .wrBase _ _ _ | .wrRes _ _ _ => false
  | .wrRsvd008 _ _ | .wrRsvd010 _ _ | .wrRsvd020 _ _ | .wrRsvd060 _ _ | .wrRsvd180 _ _ => false
  | .rdCtrl | .rdStatus | .rdScalar _ | .rdBase _ _ | .rdRes _ _ => false
  | .rdRsvd008 _ | .rdRsvd010 _ | .rdRsvd020 _ | .rdRsvd060 _ | .rdRsvd180 _ => false

theorem isUop_writeInstr (t : Target) (d : Word) : isUop (writeInstr t d) = false := by
  cases t
  case ctrl => cases h : d.getLsbD 0 <;> simp only [writeInstr, h] <;> rfl
  all_goals rfl

theorem isUop_readInstr (t : Target) : isUop (readInstr t) = false := by
  cases t <;> rfl

/-- A transaction word never decodes to a uop. -/
theorem isUop_of_decodeHost {ht : BitVec 42} {i : Instr} (h : decodeHost ht = .ok i) : isUop i = false := by
  unfold decodeHost at h
  dsimp only at h
  split at h
  · cases h
  · split at h
    · cases h
    · cases h
      split
      · exact isUop_writeInstr _ _
      · exact isUop_readInstr _

theorem isUop_of_decodeAccess {a : Access} {i : Instr} (h : decodeAccess a = .ok i) : isUop i = false := by
  unfold decodeAccess at h
  split at h
  · cases h
  · split at h
    · exact isUop_of_decodeHost h
    · split at h
      · cases h
      · exact isUop_of_decodeHost h

/-- Every host instruction completes from every state. -/
theorem exec_host_completes {i : Instr} (h : isUop i = false) (s : State) : ∃ t, exec i s = .next t := by
  cases i <;> first | (cases h; done) | exact ⟨_, rfl⟩

/-- Every well-formed uop completes from every state. -/
theorem exec_uop_completes {i : Instr} (hw : i.wf = true) (hu : isUop i = true) (s : State) :
    ∃ t, exec i s = .next t := by
  cases i <;> first | (cases hu; done) | exact ⟨_, rfl⟩ | exact ⟨_, if_pos hw⟩

end Sys2Proof.Machine
end

