-- ==== Sys2Proof/Laws/PerInstr.lean ====
section
/-! SUPPORT. Statements made for every instruction, one lemma per constructor of Instr.

`RowMatch`: the word the encoder writes for an instruction lies in that instruction's row of spec/opcode_table.json. -/

namespace Sys2Proof.Laws

/-- The mask of a row that leaves DATA alone, and its match, split at DATA. -/
theorem matches_of_offset (we : Bool) (off : BitVec 9) (data : Word) (wm : BitVec 1) (om : BitVec 9)
    (mask mtch : BitVec 42) (hmask : mask = wm ++ om ++ 0#32)
    (hmtch : (BitVec.ofBool we &&& wm) ++ (off &&& om) ++ 0#32 = mtch) :
    transactionWord we off data &&& mask = mtch := by
  subst hmask
  rw [← hmtch, transactionWord, BitVec.and_append, BitVec.and_append, BitVec.and_zero]

/-- The mask of a CTRL write looks at DATA[0] too. -/
theorem matches_of_ctrl (ignored : BitVec 31) (b : BitVec 1) (mask mtch : BitVec 42)
    (hmask : mask = 1#1 ++ 0x1FF#9 ++ (0#31 ++ 1#1)) (hmtch : 1#1 ++ 0#9 ++ (0#31 ++ b) = mtch) (hb : b &&& 1#1 = b) :
    transactionWord true 0 (ignored ++ b) &&& mask = mtch := by
  subst hmask
  rw [← hmtch, transactionWord, BitVec.and_append, BitVec.and_append, BitVec.and_append, BitVec.and_zero, hb]
  rfl

namespace RowMatch

/-- The instruction's word lies in its table row. -/
def Statement (i : Instr) : Prop := i.row.matchesWord (encode i) = true

theorem wrCtrlStart (ignored : BitVec 31) : Statement (.wrCtrlStart ignored) := by
  refine Bool.and_eq_true_iff.mpr ⟨rfl, beq_iff_eq.mpr (matches_of_ctrl ignored 1 _ _ ?_ ?_ ?_)⟩
  · simp only [Instr.row]; decide
  · simp only [Instr.row]; decide
  · decide

theorem wrCtrlNop (ignored : BitVec 31) : Statement (.wrCtrlNop ignored) := by
  refine Bool.and_eq_true_iff.mpr ⟨rfl, beq_iff_eq.mpr (matches_of_ctrl ignored 0 _ _ ?_ ?_ ?_)⟩
  · simp only [Instr.row]; decide
  · simp only [Instr.row]; decide
  · decide

theorem wrStatus (data : Word) : Statement (.wrStatus data) := by
  refine Bool.and_eq_true_iff.mpr ⟨rfl, beq_iff_eq.mpr (matches_of_offset true _ data 1 0x1FF _ _ ?_ ?_)⟩
  · simp only [Instr.row]; decide
  · simp only [Instr.row]; decide

theorem wrScalar (w : BitVec 3) (data : Word) : Statement (.wrScalar w data) := by
  refine Bool.and_eq_true_iff.mpr ⟨rfl, beq_iff_eq.mpr (matches_of_offset true _ data 1 0x1E3 _ _ ?_ ?_)⟩
  · simp only [Instr.row]; decide
  · simp only [Instr.row]; revert w; decide

theorem wrBase (c : Coord) (w : BitVec 3) (data : Word) : Statement (.wrBase c w data) := by
  refine Bool.and_eq_true_iff.mpr ⟨rfl, beq_iff_eq.mpr (matches_of_offset true _ data 1 0x183 _ _ ?_ ?_)⟩
  · simp only [Instr.row]; decide
  · simp only [Instr.row]; cases c <;> revert w <;> decide

theorem wrRes (c : Coord) (w : BitVec 3) (data : Word) : Statement (.wrRes c w data) := by
  refine Bool.and_eq_true_iff.mpr ⟨rfl, beq_iff_eq.mpr (matches_of_offset true _ data 1 0x183 _ _ ?_ ?_)⟩
  · simp only [Instr.row]; decide
  · simp only [Instr.row]; cases c <;> revert w <;> decide

theorem wrRsvd008 (w : BitVec 1) (data : Word) : Statement (.wrRsvd008 w data) := by
  refine Bool.and_eq_true_iff.mpr ⟨rfl, beq_iff_eq.mpr (matches_of_offset true _ data 1 0x1F8 _ _ ?_ ?_)⟩
  · simp only [Instr.row]; decide
  · simp only [Instr.row]; revert w; decide

theorem wrRsvd010 (w : BitVec 2) (data : Word) : Statement (.wrRsvd010 w data) := by
  refine Bool.and_eq_true_iff.mpr ⟨rfl, beq_iff_eq.mpr (matches_of_offset true _ data 1 0x1F0 _ _ ?_ ?_)⟩
  · simp only [Instr.row]; decide
  · simp only [Instr.row]; revert w; decide

theorem wrRsvd020 (w : BitVec 3) (data : Word) : Statement (.wrRsvd020 w data) := by
  refine Bool.and_eq_true_iff.mpr ⟨rfl, beq_iff_eq.mpr (matches_of_offset true _ data 1 0x1E0 _ _ ?_ ?_)⟩
  · simp only [Instr.row]; decide
  · simp only [Instr.row]; revert w; decide

theorem wrRsvd060 (w : BitVec 3) (data : Word) : Statement (.wrRsvd060 w data) := by
  refine Bool.and_eq_true_iff.mpr ⟨rfl, beq_iff_eq.mpr (matches_of_offset true _ data 1 0x1E0 _ _ ?_ ?_)⟩
  · simp only [Instr.row]; decide
  · simp only [Instr.row]; revert w; decide

theorem wrRsvd180 (w : BitVec 5) (data : Word) : Statement (.wrRsvd180 w data) := by
  refine Bool.and_eq_true_iff.mpr ⟨rfl, beq_iff_eq.mpr (matches_of_offset true _ data 1 0x180 _ _ ?_ ?_)⟩
  · simp only [Instr.row]; decide
  · simp only [Instr.row]; revert w; decide

theorem rdCtrl : Statement (.rdCtrl) := by
  unfold Statement; decide

theorem rdStatus : Statement (.rdStatus) := by
  unfold Statement; decide

theorem rdScalar (w : BitVec 3) : Statement (.rdScalar w) := by
  unfold Statement; revert w; decide

theorem rdBase (c : Coord) (w : BitVec 3) : Statement (.rdBase c w) := by
  unfold Statement; cases c <;> revert w <;> decide

theorem rdRes (c : Coord) (w : BitVec 3) : Statement (.rdRes c w) := by
  unfold Statement; cases c <;> revert w <;> decide

theorem rdRsvd008 (w : BitVec 1) : Statement (.rdRsvd008 w) := by
  unfold Statement; revert w; decide

theorem rdRsvd010 (w : BitVec 2) : Statement (.rdRsvd010 w) := by
  unfold Statement; revert w; decide

theorem rdRsvd020 (w : BitVec 3) : Statement (.rdRsvd020 w) := by
  unfold Statement; revert w; decide

theorem rdRsvd060 (w : BitVec 3) : Statement (.rdRsvd060 w) := by
  unfold Statement; revert w; decide

theorem rdRsvd180 (w : BitVec 5) : Statement (.rdRsvd180 w) := by
  unfold Statement; revert w; decide

theorem enc : Statement (.enc) := by
  unfold Statement; decide

theorem tcache : Statement (.tcache) := by
  unfold Statement; decide

theorem tadd (k : BitVec 6) : Statement (.tadd k) := by
  unfold Statement; revert k; decide

theorem c2e : Statement (.c2e) := by
  unfold Statement; decide

theorem te2c (k : BitVec 6) : Statement (.te2c k) := by
  unfold Statement; revert k; decide

theorem sel (i : BitVec 6) : Statement (.sel i) := by
  unfold Statement; revert i; decide

theorem addi : Statement (.addi) := by
  unfold Statement; decide

theorem c2p (j : BitVec 2) : Statement (.c2p j) := by
  unfold Statement; revert j; decide

theorem dbl (j : BitVec 2) : Statement (.dbl j) := by
  unfold Statement; revert j; decide

theorem add (i : BitVec 6) : Statement (.add i) := by
  unfold Statement; revert i; decide

theorem fin : Statement (.fin) := by
  unfold Statement; decide

end RowMatch

end Sys2Proof.Laws
end

