-- ==== Sys2Proof/Laws/Words.lean ====
section
/-! SUPPORT. The words of a 256-bit register, the coordinates of a point, and the masked select. -/

namespace Sys2Proof.Machine

/-- A bit of a register after one of its words is written. -/
theorem getLsbD_setWord (v : BitVec 256) (w : BitVec 3) (d : Word) (i : Nat) :
    (setWord v w d).getLsbD i =
      if 32 * w.toNat ≤ i ∧ i < 32 * w.toNat + 32 then d.getLsbD (i - 32 * w.toNat) else v.getLsbD i := by
  have hw := w.isLt
  by_cases h256 : i < 256
  · simp only [setWord, BitVec.getLsbD_or, BitVec.getLsbD_and, BitVec.getLsbD_not, BitVec.getLsbD_shiftLeft,
      BitVec.getLsbD_setWidth, BitVec.getLsbD_allOnes, h256, decide_true, Bool.true_and]
    by_cases hlo : i < 32 * w.toNat
    · have : ¬ (32 * w.toNat ≤ i) := by omega
      simp [hlo, this]
    · by_cases hhi : i < 32 * w.toNat + 32
      · have h1 : i - 32 * w.toNat < 32 := by omega
        have h2 : i - 32 * w.toNat < 256 := by omega
        have h3 : 32 * w.toNat ≤ i := by omega
        simp [hlo, hhi, h1, h2, h3]
      · have h1 : ¬ (i - 32 * w.toNat < 32) := by omega
        have h3 : d.getLsbD (i - 32 * w.toNat) = false := BitVec.getLsbD_of_ge _ _ (by omega)
        simp [hlo, hhi, h1, h3]
  · rw [BitVec.getLsbD_of_ge _ _ (by omega), BitVec.getLsbD_of_ge v _ (by omega)]
    rw [if_neg (by omega)]

@[simp] theorem getCoord_setCoord_same (p : ExtPoint) (c : Coord) (v : Fe) : getCoord (setCoord p c v) c = v := by
  cases c <;> rfl

theorem getCoord_setCoord_other (p : ExtPoint) {c e : Coord} (v : Fe) (h : e ≠ c) :
    getCoord (setCoord p c v) e = getCoord p e := by
  cases c <;> cases e <;> first | rfl | exact absurd rfl h

@[simp] theorem tblIndex_val (n : Nat) (h : n ≤ 7) : (tblIndex n).val = n := by
  simp only [tblIndex, Fin.ofNat]; omega

end Sys2Proof.Machine
end

