-- ==== Sys2Proof/Tests/Slice0.lean ====
section
/-! SUPPORT. The model's own tests. Expected values come from spec/95_test_vectors.md (named T1 to T40, P1 to P4), from
the worked examples of the rules, or from the encoding tables. Then a witness for every statement with hypotheses. -/

namespace Sys2Proof.Tests

open Sys2Proof Sys2Proof.Machine

/-! ## WellFormed: an ill-formed term for each check (30_encoding R86) -/

theorem test_tadd_below_range_refused : (Instr.tadd 0).wf = false := by decide
theorem test_tadd_above_range_refused : (Instr.tadd 8).wf = false := by decide
theorem test_te2c_below_range_refused : (Instr.te2c 0).wf = false := by decide
theorem test_te2c_above_range_refused : (Instr.te2c 8).wf = false := by decide
theorem test_add_above_range_refused : (Instr.add 63).wf = false := by decide
theorem test_range_ends_accepted : (Instr.tadd 1).wf ∧ (Instr.tadd 7).wf ∧ (Instr.te2c 7).wf ∧ (Instr.add 62).wf := by
  decide

/-! ## Decoding: words written out field by field from 30_encoding R81, R83, R86, R87 -/

/-- `{WE, OFF, DATA}` with WE = 1: CTRL, STATUS, SCALAR, BASE, RES. -/
theorem test_decode_writes :
    decode (.host (1#1 ++ 0b000000000#9 ++ 0x80000001#32)) = .ok (.wrCtrlStart 0x40000000) ∧
    decode (.host (1#1 ++ 0b000000000#9 ++ 0x00000006#32)) = .ok (.wrCtrlNop 3) ∧
    decode (.host (1#1 ++ 0b000000100#9 ++ 0x00000006#32)) = .ok (.wrStatus 6) ∧
    decode (.host (1#1 ++ 0b001001100#9 ++ 0x80000000#32)) = .ok (.wrScalar 3 0x80000000) ∧
    decode (.host (1#1 ++ 0b011000100#9 ++ 0x00000001#32)) = .ok (.wrBase .Z 1 1) ∧
    decode (.host (1#1 ++ 0b100111100#9 ++ 0x00000001#32)) = .ok (.wrRes .Y 7 1) := by
  decide

/-- The five reserved ranges, written, at the last word of each. -/
theorem test_decode_reserved_writes :
    decode (.host 0x20C00000001) = .ok (.wrRsvd008 1 1) ∧
    decode (.host 0x21C00000001) = .ok (.wrRsvd010 3 1) ∧
    decode (.host 0x23C00000001) = .ok (.wrRsvd020 7 1) ∧
    decode (.host 0x27C00000001) = .ok (.wrRsvd060 7 1) ∧
    decode (.host 0x3FC00000001) = .ok (.wrRsvd180 31 1) := by
  decide

/-- `{WE, OFF, DATA}` with WE = 0. -/
theorem test_decode_reads :
    decode (.host (0#1 ++ 0b000000000#9 ++ 0#32)) = .ok .rdCtrl ∧
    decode (.host (0#1 ++ 0b000000100#9 ++ 0#32)) = .ok .rdStatus ∧
    decode (.host (0#1 ++ 0b001011100#9 ++ 0#32)) = .ok (.rdScalar 7) ∧
    decode (.host (0#1 ++ 0b010000100#9 ++ 0#32)) = .ok (.rdBase .X 1) ∧
    decode (.host (0#1 ++ 0b101111100#9 ++ 0#32)) = .ok (.rdRes .T 7) := by
  decide

/-- The five reserved ranges, read, at the first word of each. -/
theorem test_decode_reserved_reads :
    decode (.host 0x00800000000) = .ok (.rdRsvd008 0) ∧
    decode (.host 0x01000000000) = .ok (.rdRsvd010 0) ∧
    decode (.host 0x02000000000) = .ok (.rdRsvd020 0) ∧
    decode (.host 0x06000000000) = .ok (.rdRsvd060 0) ∧
    decode (.host 0x18000000000) = .ok (.rdRsvd180 0) := by
  decide

/-- `{J, IDX, OP}`. -/
theorem test_decode_uops :
    decode (.uop 0b000000000001) = .ok .enc ∧
    decode (.uop 0b000000000010) = .ok .tcache ∧
    decode (.uop 0b000001110011) = .ok (.tadd 7) ∧
    decode (.uop 0b000000000100) = .ok .c2e ∧
    decode (.uop 0b000000010101) = .ok (.te2c 1) ∧
    decode (.uop 0b001111110110) = .ok (.sel 63) ∧
    decode (.uop 0b000000000111) = .ok .addi ∧
    decode (.uop 0b010000001000) = .ok (.c2p 1) ∧
    decode (.uop 0b110000001001) = .ok (.dbl 3) ∧
    decode (.uop 0b001111101010) = .ok (.add 62) ∧
    decode (.uop 0b000000001011) = .ok .fin := by
  decide

/-- Reserved uop codes and fields (30_encoding R88) and a misaligned offset inside a reserved row's mask (R82). -/
theorem test_decode_rejects :
    decode (.uop 0x000) = .reject .reservedOp ∧ decode (.uop 0x00C) = .reject .reservedOp ∧
    decode (.uop 0x011) = .reject .reservedField ∧ decode (.uop 0x403) = .reject .reservedField ∧
    decode (.uop 0x018) = .reject .reservedField ∧ decode (.host 0x20900000000) = .reject .misaligned := by
  decide

theorem test_table_words :
    decodeTableWord 48 0x24000000000 = some (.wrScalar 0 0) ∧ decodeTableWord 16 0x006 = some (.sel 0) ∧
    decodeTableWord 16 0x1001 = none ∧ decodeTableWord 48 0x40000000000 = none := by
  decide

/-! ## The toy PAU of 95_test_vectors §1 -/

def toy : Pau where
  add h c := ⟨(h.X + c.YpX).toNat⟩
  dbl p := ⟨2 * p.code % 2 ^ 256⟩
  c2e r := ⟨BitVec.ofNat 256 r.code, 0, 1, 0⟩
  c2p r := ⟨r.code⟩
  e2c h := ⟨h.X, -h.X, 1, h.X⟩
  feNeg x := -x
  identityExt := ⟨0, 0, 1, 0⟩

/-- The base point `A = {1, 0, 1, 0}` of §1. -/
def pointA : ExtPoint := ⟨1, 0, 1, 0⟩

/-- The entry for `k` in the toy table (T18). -/
def toyEntry (k : Fe) : CachedPoint := ⟨k, -k, 1, k⟩

/-- The toy table (T18). -/
def toyTable : Vector CachedPoint 8 :=
  #v[toyEntry 1, toyEntry 2, toyEntry 3, toyEntry 4, toyEntry 5, toyEntry 6, toyEntry 7, toyEntry 8]

/-- An idle block with scalar 15 and base A. -/
def idle : State := { State.reset with scalar := 15, base := pointA }

/-- The same block right after an accepted START. -/
def running : State := { idle with status := ⟨true, false, false, 0⟩, snapS := 15, snapA := pointA }

/-- A running block before `SEL 0`, with the toy table and this digit. -/
def selecting (b : Digit) : State := { running with TBL := toyTable, E := State.reset.E.set 0 b }

/-! ## Micro-operations on the toy vectors -/

/-- T3: scalar 15. -/
theorem test_enc_15 : (encodeDigits 15)[0] = -1 ∧ (encodeDigits 15)[1] = 1 ∧ (encodeDigits 15)[2] = 0 := by decide
/-- T9: two carries. -/
theorem test_enc_0x88 :
    (encodeDigits 0x88)[0] = -8 ∧ (encodeDigits 0x88)[1] = -7 ∧ (encodeDigits 0x88)[2] = 1 := by decide
set_option maxRecDepth 4000 in
/-- T11: the carry runs to the top digit. -/
theorem test_enc_largest :
    (encodeDigits (BitVec.ofNat 256 (2 ^ 255 - 1)))[62] = 0 ∧ (encodeDigits (BitVec.ofNat 256 (2 ^ 255 - 1)))[63] = 8 := by
  decide
/-- T18. -/
theorem test_tcache : (runTcache toy running).TBL[0] = toyEntry 1 := by decide
theorem test_tadd_1 : (runTadd toy 1 { running with TBL := toyTable }).R = ⟨2⟩ := by decide
theorem test_tadd_7 : (runTadd toy 7 { running with TBL := toyTable }).R = ⟨8⟩ := by decide
theorem test_c2e : (runC2e toy { running with R := ⟨2⟩ }).H = ⟨2, 0, 1, 0⟩ := by decide
theorem test_te2c_7 : (runTe2c toy 7 { running with H := ⟨8, 0, 1, 0⟩ }).TBL[7] = toyEntry 8 := by decide
/-- T12 to T15. -/
theorem test_sel_minus_3 : (runSel toy 0 (selecting (-3))).C = ⟨-3, 3, 1, -3⟩ := by decide
theorem test_sel_0 : (runSel toy 0 (selecting 0)).C = ⟨0, 0, 1, 0⟩ := by decide
theorem test_sel_8 : (runSel toy 0 (selecting 8)).C = toyEntry 8 := by decide
theorem test_sel_minus_8 : (runSel toy 0 (selecting (-8))).C = ⟨-8, 8, 1, -8⟩ := by decide
/-- T25. -/
theorem test_addi : (runAddi toy { running with C := toyEntry 8 }).R = ⟨8⟩ := by decide
/-- T26. -/
theorem test_c2p : (runC2p toy 3 { running with R := ⟨8⟩ }).S = ⟨8⟩ := by decide
theorem test_dbl : (runDbl toy 3 { running with S := ⟨8⟩ }).R = ⟨16⟩ := by decide
/-- T27: the toy addition wraps. -/
theorem test_add : (runAdd toy 0 { running with H := ⟨16, 0, 1, 0⟩, C := ⟨-1, 1, 1, -1⟩ }).R = ⟨15⟩ := by decide
/-- The worked example of 44_evaluator R169. -/
theorem test_fin_result : (runFin toy { running with R := ⟨15⟩, upc := 718 }).result = ⟨15, 0, 1, 0⟩ := by decide
theorem test_fin_status :
    (runFin toy { running with R := ⟨15⟩, upc := 718 }).status = ⟨false, true, false, 0⟩ ∧
    (runFin toy { running with R := ⟨15⟩, upc := 718 }).upc = 718 := by decide

/-- The events the meanings note are those of the table of 45_sequencer R183 (T17 for SEL 63). -/
theorem test_events_are_the_tables :
    (runSel toy 63 running).trace.map some = [tableEvent 0x3F6] ∧
    (runTadd toy 7 running).trace.map some = [tableEvent 0x073] ∧
    (runAdd toy 62 running).trace.map some = [tableEvent 0x3EA] ∧
    (runEnc running).trace.map some = [tableEvent 0x001] := by decide

/-! ## Host accesses -/

/-- What one turn answers. -/
def answer (s : State) (t : Turn) : Option Response :=
  match step { s with turns := [t] } with
  | .next u => u.response
  | _ => none

/-- The STATUS word after one turn. -/
def statusAfter (s : State) (t : Turn) : Option Word :=
  match step { s with turns := [t] } with
  | .next u => some (statusWord u.status)
  | _ => none

/-- One turn as a run of one step, for two turns in a row. -/
def after (s : State) (t : Turn) : State :=
  match step { s with turns := [t] } with
  | .next u => u
  | _ => s

/-- T35. -/
theorem test_rejected_start : statusAfter { idle with scalar := 1#256 <<< 255 } go = some 0x16 := by decide
theorem test_accepted_start : statusAfter idle go = some 0x01 := by decide
/-- T36, with bit 255 set at that moment. -/
theorem test_start_while_busy : statusAfter { running with scalar := 1#256 <<< 255 } go = some 0x01 := by decide
/-- T37. -/
theorem test_bus_errors :
    answer idle (.host ⟨0x000, 8, .write 1 1⟩) = some (.busError 0x000) ∧
    answer idle (.host ⟨0x004, 16, .read⟩) = some (.busError 0x004) ∧
    answer idle (.host ⟨0x042, 32, .write 0xF 0⟩) = some (.busError 0x042) ∧
    answer idle (.host ⟨0x000, 32, .write 0b0001 1⟩) = some (.busError 0x000) := by decide
/-- T38. -/
theorem test_scalar_is_write_only :
    answer (after idle (wr 0x040 0x0F)) (rd 0x040) = some (.readData 0) ∧
    (after idle (wr 0x044 0x0F)).scalar = 0xF0000000F := by decide
theorem test_base_reads_back : answer (after idle (wr 0x0E4 0xDEADBEEF)) (rd 0x0E4) = some (.readData 0xDEADBEEF) := by
  decide
theorem test_result_write_ignored : (after idle (wr 0x100 0x12345678)).result = idle.result := by decide
/-- T39. -/
theorem test_status_clears :
    statusAfter { idle with status := ⟨false, true, true, 1⟩ } (wr 0x004 2) = some 0x14 ∧
    statusAfter { idle with status := ⟨false, true, true, 1⟩ } (wr 0x004 4) = some 0x02 ∧
    statusAfter { idle with status := ⟨false, true, false, 0⟩ } (wr 0x004 1) = some 0x02 := by decide
/-- T40: reset during an operation. -/
theorem test_reset_abandons :
    statusAfter { running with upc := 300 } (.reset none) = some 0 ∧
    (after { running with result := ⟨7, 0, 1, 0⟩ } (.reset none)).result = zeroExt := by decide

/-! ## Steps that run a word of the opcode table from reset -/

theorem test_fetch_transaction :
    (match step (State.reset.withFetchWord 48 0x2400000000F) with | .next t => t.scalar | _ => 0) = 15 := by decide
theorem test_fetch_uop :
    (match step (State.reset.withFetchWord 16 0x016) with | .next t => t.upc | _ => 0) = 706 := by decide

/-! ## Witnesses: the hypotheses of the statements can be met -/

theorem idle_inv : idle.Inv :=
  ⟨by decide, by decide, by decide, by decide, by intro h; exact absurd h (by decide)⟩

theorem running_inv : running.Inv :=
  ⟨by decide, by decide, by decide, by decide, by intro _ h; exact absurd h (by decide)⟩

theorem running_at_first_uop : running.AtFirstUop := ⟨running_inv, rfl, rfl⟩

/-- A second running block, with the other scalar and other leftovers. -/
def running' : State := { running with snapS := 8, R := ⟨5⟩, H := pointA }

theorem running'_at_first_uop : running'.AtFirstUop :=
  ⟨⟨by decide, by decide, by decide, by decide, by intro _ h; exact absurd h (by decide)⟩, rfl, rfl⟩

/-- An operation with no host access in between. -/
theorem plain_operation : operationTurns (List.replicate 719 .sequencer) :=
  ⟨fun t h => by rw [List.eq_of_mem_replicate h]; rfl, by rw [List.countP_replicate]; rfl⟩

/-- The one-point denotation: it satisfies the laws with any PAU, so with the machine's. -/
def pointDenotation : Denotation PUnit.{1} :=
  ⟨fun _ => 0, fun _ => 0, fun _ => 0, fun _ => 0, fun _ => True, fun _ => True, fun _ => True, fun _ => True⟩

theorem witness_laws_of_config_pau : PauLaws Config.pau pointDenotation :=
  ⟨fun _ _ => ⟨trivial, rfl⟩, fun _ _ => ⟨trivial, rfl⟩, fun _ _ => ⟨trivial, rfl⟩, fun _ _ _ _ => ⟨trivial, rfl⟩,
    fun _ _ => ⟨trivial, rfl⟩, ⟨trivial, rfl⟩, fun _ _ => ⟨trivial, rfl⟩⟩

/-- The denotation of the toy (95_test_vectors §1); L5 is for cached values with `YmX = -YpX`. -/
def toyDenotation : Denotation (BitVec 256) :=
  ⟨fun h => h.X, fun c => c.YpX, fun r => BitVec.ofNat 256 r.code, fun p => BitVec.ofNat 256 p.code, fun _ => True,
    fun c => c.YmX = -c.YpX, fun _ => True, fun _ => True⟩

/-- The laws are not only met by the one-point group: the toy meets them with a group of 2^256 points. -/
theorem toy_meets_the_laws : PauLaws toy toyDenotation where
  c2e _ _ := ⟨trivial, rfl⟩
  c2p _ _ := ⟨trivial, rfl⟩
  e2c _ _ := ⟨rfl, rfl⟩
  add _ _ _ _ := ⟨trivial, by
    simp only [toy, toyDenotation, BitVec.ofNat_toNat, BitVec.setWidth_eq]⟩
  dbl p _ := ⟨trivial, by
    apply BitVec.eq_of_toNat_eq
    simp only [toy, toyDenotation, BitVec.toNat_add, BitVec.toNat_ofNat]
    omega⟩
  identity := ⟨trivial, rfl⟩
  neg c hc := by
    have h : c.YmX = -c.YpX := hc
    exact ⟨by simp [toyDenotation, negCached, h], by simp [toyDenotation, negCached, h]⟩

theorem witness_EncodeOfDecodeIsTheWord :
    decodeUop 0x3EA = .ok (.add 62) ∧ decodeHost (transactionWord true 0x05C 7) = .ok (.wrScalar 7 7) ∧
    decodeHost (transactionWord false 0x05C 7) = .ok (.rdScalar 7) := by decide

theorem witness_DecodedWordMatchesExactlyItsRow : decode (.uop 0x3EA) = .ok (.add 62) := by decide

/-- Each clause: a wrong size, missing byte enables, a misaligned read, a good write. -/
theorem witness_AccessChecksComeInOrder :
    decodeAccess ⟨0x001, 16, .read⟩ = .reject .size ∧ decodeAccess ⟨0x001, 32, .write 7 0⟩ = .reject .byteEnables ∧
    decodeAccess ⟨0x1FF, 32, .read⟩ = .reject .misaligned ∧
    decodeAccess ⟨0x1FC, 32, .write 0xF 0⟩ = .ok (.wrRsvd180 31 0) := by decide

theorem witness_StepRunsTheDecodedAccess :
    ({ idle with turns := [go] } : State).turns = [go] ∧ idle.status.errcode.toNat ≤ 1 ∧
    decodeAccess ⟨0, 32, .write 0xF 1⟩ = .ok (.wrCtrlStart 0) := by decide

theorem witness_StepRunsTheScheduledUop :
    running.status.busy = true ∧ running.status.errcode.toNat ≤ 1 ∧ sched running.upc.toNat = some 0x001 ∧
    decodeUop 0x001 = .ok .enc ∧ running.turns = [] ∧
    ({ running with turns := [.sequencer] } : State).turns = [.sequencer] := by decide

theorem witness_IdleSequencerTakesNoStep :
    idle.status.busy = false ∧ idle.status.errcode.toNat ≤ 1 ∧ idle.turns = [] ∧
    ({ idle with turns := [.sequencer] } : State).turns = [.sequencer] := by decide

/-- One access for each of the three reasons. -/
theorem witness_BadAccessIsABusErrorThatChangesNothing :
    idle.status.errcode.toNat ≤ 1 ∧ (⟨0, 8, .read⟩ : Access).sizeBits ≠ 32 ∧ (7 : BitVec 4) ≠ 0xF ∧
    (0x003 : BitVec 9).toNat % 4 ≠ 0 := by decide

theorem witness_ResetTurnGivesTheResetState :
    ({ running with turns := [.reset (some ⟨0, 32, .read⟩), go] } : State).turns =
      .reset (some ⟨0, 32, .read⟩) :: [go] := rfl

theorem witness_EveryWindowWordReadsZeroAfterReset : (0x1FC : BitVec 9).toNat % 4 = 0 := by decide

theorem witness_ReservedErrcodeIsAFault :
    2 ≤ ({ idle with status := ⟨false, false, true, 2⟩ } : State).status.errcode.toNat ∧
    ∀ l rest, ({ idle with status := ⟨false, false, true, 2⟩ } : State).turns ≠ .reset l :: rest :=
  ⟨by decide, fun _ _ h => by cases h⟩

/-- The ends of the ranges of R200: CTRL, STATUS, the last BASE word, the first and last RES words. -/
theorem witness_ReadReturnsTheWindowWord :
    idle.status.errcode.toNat ≤ 1 ∧ (0x000 : BitVec 9).toNat % 4 = 0 ∧ (0x004 : BitVec 9).toNat % 4 = 0 ∧
    (0x0FC : BitVec 9).toNat % 4 = 0 ∧ (0x100 : BitVec 9).toNat % 4 = 0 ∧ (0x17C : BitVec 9).toNat % 4 = 0 ∧
    ({ idle with turns := [rd 0x0FC] } : State).turns = rd 0x0FC :: [] := by decide

/-- A bit inside the written word and one outside it, at its ends. -/
theorem witness_InputWriteStoresItsWordOnly :
    32 * (7 : BitVec 3).toNat ≤ 255 ∧ 255 < 32 * (7 : BitVec 3).toNat + 32 ∧ ¬ 32 * (7 : BitVec 3).toNat ≤ 223 := by
  decide

theorem witness_ScalarBytesAreLittleEndian : 3 < 4 ∧ 31 / 4 = (7 : BitVec 3).toNat ∧ 27 / 4 ≠ (7 : BitVec 3).toNat := by
  decide

/-- The ends of the ignored ranges, and a CTRL write with bit 0 = 0. -/
theorem witness_IgnoredWritesChangeNothing :
    (0x008 : BitVec 9).toNat % 4 = 0 ∧ 0x008 ≤ (0x008 : BitVec 9).toNat ∧ (0x03C : BitVec 9).toNat < 0x040 ∧
    0x060 ≤ (0x060 : BitVec 9).toNat ∧ (0x07C : BitVec 9).toNat < 0x080 ∧ 0x100 ≤ (0x100 : BitVec 9).toNat ∧
    (0x1FC : BitVec 9).toNat % 4 = 0 ∧ (0xFFFFFFFE : Word).getLsbD 0 = false := by decide

/-- Each clause, the last two at the boundary 2^255. -/
theorem witness_StartIsIgnoredAcceptedOrRejected :
    (0xFFFFFFFF : Word).getLsbD 0 = true ∧
    running.status.busy = true ∧ idle.status.busy = false ∧
    (BitVec.ofNat 256 (2 ^ 255 - 1)).toNat < 2 ^ 255 ∧ 2 ^ 255 ≤ (BitVec.ofNat 256 (2 ^ 255)).toNat := by decide

theorem witness_StatusWriteClearsByOnes : running.Inv ∧ running.status.busy = true := ⟨running_inv, rfl⟩

/-- The digits on both sides of the case distinction. -/
theorem witness_EncWritesTheClosedFormDigits : (62 : Fin 64).val < 63 ∧ ¬ (63 : Fin 64).val < 63 ∧ 62 < 63 := by decide

theorem witness_DigitsAreInRangeAndSumToTheScalar :
    (BitVec.ofNat 256 (2 ^ 255 - 1)).toNat < 2 ^ 255 ∧ (62 : Fin 64).val < 63 := by decide

/-- The digits at both ends of the selector's range, and the entries they name. -/
theorem witness_SelectionDenotesTheDigitMultiple :
    PauLaws Config.pau pointDenotation ∧
    (∀ k : Fin 8, pointDenotation.okCached ((selecting 8).TBL.get k) ∧
      pointDenotation.cached ((selecting 8).TBL.get k) = (k.val + 1) • (0 : PUnit)) ∧
    digitAt (selecting 8).E 0 = ((7 : Fin 8).val : Int) + 1 ∧
    digitAt (selecting (-8)).E 0 = -(((7 : Fin 8).val : Int) + 1) :=
  ⟨witness_laws_of_config_pau, fun _ => ⟨trivial, rfl⟩, by decide, by decide⟩

theorem witness_OutOfRangeUopIsAFault : 8 ≤ (8 : BitVec 6).toNat ∧ 8 ≤ (63 : BitVec 6).toNat := by decide

theorem witness_ScheduleHoldsOnlyWellFormedUops : 718 < 719 ∧ 719 ≥ 719 := by decide

theorem witness_StepKeepsTheLegalStates : running.Inv ∧ ∃ t, step running = .next t := ⟨running_inv, _, rfl⟩

theorem witness_LegalStatesNeverStop : running.Inv ∧ idle.Inv := ⟨running_inv, idle_inv⟩

theorem witness_HostAccessLeavesTheInternals : running.status.busy = true := rfl

/-- A reset that changes RESULT; FIN changes it to the PAU's value, of which nothing is known. -/
theorem witness_ResultChangesOnlyAtFinOrReset :
    ∃ t, step { idle with result := pointA, turns := [.reset none] } = .next t ∧ t.result ≠ pointA :=
  ⟨_, rfl, by decide⟩

theorem witness_SequencerKeepsScalarAndBase : ∃ t, sequencerTurn running = .next t := ⟨_, rfl⟩

theorem witness_RunningOperationIgnoresTheInputRegisters : ∃ t, sequencerTurn running = .next t := ⟨_, rfl⟩

theorem witness_AccessAndUopCommuteBeforeFin :
    ∃ t u, running.status.busy = true ∧ running.upc.toNat < 718 ∧ sequencerTurn running = .next t ∧
      hostTurn ⟨0x004, 32, .read⟩ running = .next u :=
  ⟨_, _, rfl, by decide, rfl, rfl⟩

theorem witness_AcceptedOperationEndsAfter719Uops :
    ({ idle with turns := [go] } : State).Inv ∧ idle.status.busy = false ∧ idle.scalar.toNat < 2 ^ 255 ∧ 1 ≤ 719 :=
  ⟨⟨by decide, by decide, by decide, by decide, by intro h; exact absurd h (by decide)⟩, rfl, by decide, by decide⟩

theorem witness_RejectedStartRunsNoUop :
    ({ idle with scalar := BitVec.ofNat 256 (2 ^ 255), turns := [go] } : State).Inv ∧
    2 ^ 255 ≤ ({ idle with scalar := BitVec.ofNat 256 (2 ^ 255), turns := [go] } : State).scalar.toNat :=
  ⟨⟨by decide, by decide, by decide, by decide, by intro h; exact absurd h (by decide)⟩, by decide⟩

/-- An interleaving that also has a host access in it: a START while busy, before the first uop. -/
def interleaved : List Turn := go :: List.replicate 719 .sequencer

/-- An idle block whose next turns are a START, that interleaving, and a CLR. -/
def started : State := { idle with turns := go :: (interleaved ++ [clr]) }

theorem started_inv : started.Inv :=
  ⟨by decide, by decide, by decide, by decide, by intro h; exact absurd h (by decide)⟩

theorem interleaved_operation : operationTurns interleaved :=
  ⟨fun t h => by
    rcases List.mem_cons.mp h with h | h
    · rw [h]; rfl
    · exact plain_operation.1 t h,
   by rw [interleaved, List.countP_cons_of_neg (by decide)]; exact plain_operation.2⟩

theorem witness_OperationTraceIsFixed :
    started.Inv ∧ started.status.busy = false ∧ started.scalar.toNat < 2 ^ 255 ∧ operationTurns interleaved ∧
      started.turns = go :: (interleaved ++ [clr]) :=
  ⟨started_inv, rfl, by decide, interleaved_operation, rfl⟩

theorem witness_ResultIsTheScalarMultiple :
    PauLaws Config.pau pointDenotation ∧ started.Inv ∧ started.status.busy = false ∧
      started.scalar.toNat < 2 ^ 255 ∧ pointDenotation.okExt started.base ∧ operationTurns interleaved ∧
      started.turns = go :: (interleaved ++ [clr]) :=
  ⟨witness_laws_of_config_pau, started_inv, rfl, by decide, trivial, interleaved_operation, rfl⟩

theorem witness_AccumulatorHoldsThePartialMultiple :
    PauLaws Config.pau pointDenotation ∧ running.AtFirstUop ∧ running.turns = [] ∧ pointDenotation.okExt running.snapA :=
  ⟨witness_laws_of_config_pau, running_at_first_uop, rfl, trivial⟩

theorem witness_TableHoldsTheMultiples :
    PauLaws Config.pau pointDenotation ∧ running.AtFirstUop ∧ running.turns = [] ∧ pointDenotation.okExt running.snapA :=
  ⟨witness_laws_of_config_pau, running_at_first_uop, rfl, trivial⟩

theorem witness_TableDoesNotDependOnTheScalar :
    running.AtFirstUop ∧ running'.AtFirstUop ∧ running.turns = [] ∧ running'.turns = [] ∧
    running.snapA = running'.snapA ∧ running.snapS ≠ running'.snapS :=
  ⟨running_at_first_uop, running'_at_first_uop, rfl, rfl, rfl, by decide⟩

theorem witness_ResultDependsOnTheSnapshotsOnly :
    ({ running with R := ⟨5⟩ } : State).AtFirstUop ∧ running.AtFirstUop ∧ running.turns = [] ∧ running.R ≠ ⟨5⟩ :=
  ⟨⟨⟨by decide, by decide, by decide, by decide, by intro _ h; exact absurd h (by decide)⟩, rfl, rfl⟩,
    running_at_first_uop, rfl, by decide⟩

/-- A running operation about to run FIN. -/
def lastUop : State :=
  { running with upc := 718, E := encodeDigits 15, trace := fixedTrace.take 718 }

theorem lastUop_inv : lastUop.Inv := ⟨by decide, by decide, by decide, by decide, fun _ _ => rfl⟩

theorem lastUop_completes :
    ∃ t, step lastUop = .next t ∧ lastUop.status.busy = true ∧ t.status.busy = false ∧
      ∀ l rest, lastUop.turns ≠ .reset l :: rest :=
  ⟨_, rfl, rfl, rfl, by intro l rest h; cases h⟩

theorem lastUop_trace : lastUop.TraceOnSchedule := by
  intro _
  have h : lastUop.upc.toNat = 718 := by decide
  have ht : lastUop.trace = fixedTrace.take 718 := by simp only [lastUop]
  simp only [h, ht, List.suffix_refl]

theorem running_trace : running.TraceOnSchedule := by
  intro _
  have h : running.upc.toNat = 0 := by decide
  simp only [h, List.take_zero, List.nil_suffix]

theorem witness_StepKeepsTheTraceOnSchedule :
    lastUop.Inv ∧ lastUop.TraceOnSchedule ∧ (∃ t, step lastUop = .next t) ∧
    running.Inv ∧ running.TraceOnSchedule ∧ ∃ t, step running = .next t ∧ t.status.busy = true :=
  ⟨lastUop_inv, lastUop_trace, ⟨_, rfl⟩, running_inv, running_trace, _, rfl, rfl⟩

/-- Every state denotes multiples in the one-point group. -/
theorem onMultiples_pointDenotation (s : State) : s.OnMultiples pointDenotation := by
  constructor <;> intros <;> first | exact trivial | exact ⟨trivial, rfl⟩

theorem witness_StepKeepsThePartialMultiple :
    PauLaws Config.pau pointDenotation ∧ lastUop.Inv ∧ (lastUop.status.busy = true → lastUop.OnMultiples pointDenotation) ∧
    (lastUop.status.busy = false → pointDenotation.okExt lastUop.base) ∧ ∃ t, step lastUop = .next t :=
  ⟨witness_laws_of_config_pau, lastUop_inv, fun _ => onMultiples_pointDenotation _, fun _ => trivial, _, rfl⟩

/-- Both ends of the window, and the addresses just outside it. -/
theorem witness_WindowOffsetIsTheLowNineBits :
    Config.baseAddr ≤ Config.baseAddr + 0x1FF ∧ Config.baseAddr + 0x1FF < Config.baseAddr + 0x200 ∧
    Config.baseAddr + 0x200 ≤ Config.baseAddr + 0x200 := by omega

theorem witness_LoadScalarSequenceLoadsTheScalar :
    idle.status.errcode.toNat ≤ 1 ∧ ({ idle with turns := ldScalar 7 ++ [go] } : State).turns = ldScalar 7 ++ [go] :=
  ⟨by decide, rfl⟩

theorem witness_LoadBaseSequenceLoadsTheBase :
    idle.status.errcode.toNat ≤ 1 ∧ ({ idle with turns := ldBase pointA ++ [go] } : State).turns = ldBase pointA ++ [go] :=
  ⟨by decide, rfl⟩

theorem witness_ReadResultSequenceReadsTheResult :
    idle.status.errcode.toNat ≤ 1 ∧ ({ idle with turns := rdRes ++ [go] } : State).turns = rdRes ++ [go] ∧ 31 < 32 :=
  ⟨by decide, rfl, by decide⟩

end Sys2Proof.Tests
end

section
/-! What a host turn does, and the obligation that ties it to one step (00_scope R14, 30_encoding R82). -/

namespace Sys2Proof.Machine

/-- A host turn whose access decodes is the meaning of the decoded instruction (30_encoding R82). -/
theorem hostTurn_of_decoded {s : State} {a : Access} {i : Instr} (hi : decodeAccess a = .ok i) :
    hostTurn a s = exec i s := by
  simp only [hostTurn, hi]

/-- Settles O6: with a legal ERRCODE the step is the host's turn, and that turn runs what the access decodes to. -/
theorem stepRunsTheDecodedAccess : Obligations.StepRunsTheDecodedAccess := by
  intro s a rest i ht he hi
  calc step s = hostTurn a { s with turns := rest } := step_of_host ht he
    _ = exec i { s with turns := rest } := hostTurn_of_decoded hi

end Sys2Proof.Machine
end

section
/-! What the schedule holds at each position (45_sequencer R181). -/

namespace Sys2Proof.Machine

/-! ### The uops by their position in the schedule -/

/-- The uop at each position, as the ranges of 45_sequencer R181 list them: the rows of the table build are numbered
by `k`, those of the evaluation by the digit `i`. -/
inductive ScheduledAt : Nat → Instr → Prop where
  | enc : ScheduledAt 0 .enc
  | tcache : ScheduledAt 1 .tcache
  | tadd (k : BitVec 6) (lo : 1 ≤ k.toNat) (hi : k.toNat ≤ 7) : ScheduledAt (3 * k.toNat - 1) (.tadd k)
  | tableC2e (k : Nat) (lo : 1 ≤ k) (hi : k ≤ 7) : ScheduledAt (3 * k) .c2e
  | te2c (k : BitVec 6) (lo : 1 ≤ k.toNat) (hi : k.toNat ≤ 7) : ScheduledAt (3 * k.toNat + 1) (.te2c k)
  | topSel : ScheduledAt 23 (.sel 63)
  | addi : ScheduledAt 24 .addi
  | c2p (i : Nat) (j : BitVec 2) (hi : i ≤ 62) : ScheduledAt (25 + 11 * (62 - i) + 2 * j.toNat) (.c2p j)
  | dbl (i : Nat) (j : BitVec 2) (hi : i ≤ 62) : ScheduledAt (26 + 11 * (62 - i) + 2 * j.toNat) (.dbl j)
  | digitC2e (i : Nat) (hi : i ≤ 62) : ScheduledAt (33 + 11 * (62 - i)) .c2e
  | sel (i : BitVec 6) (hi : i.toNat ≤ 62) : ScheduledAt (34 + 11 * (62 - i.toNat)) (.sel i)
  | add (i : BitVec 6) (hi : i.toNat ≤ 62) : ScheduledAt (35 + 11 * (62 - i.toNat)) (.add i)
  | fin : ScheduledAt 718 .fin

theorem ScheduledAt.isUop {n : Nat} {i : Instr} (h : ScheduledAt n i) : isUop i = true := by
  cases h <;> rfl

theorem ScheduledAt.wf {n : Nat} {i : Instr} (h : ScheduledAt n i) : i.wf = true := by
  cases h <;> simp_all [Instr.wf]

theorem ScheduledAt.le_last {n : Nat} {i : Instr} (h : ScheduledAt n i) : n ≤ 718 := by
  cases h <;> omega

/-- The ten bits of `upc` hold every position and the one after it. -/
theorem ScheduledAt.toNat_upc_succ {u : BitVec 10} {i : Instr} (h : ScheduledAt u.toNat i) :
    (u + 1).toNat = u.toNat + 1 := by
  have := h.le_last
  bv_omega

/-- FIN stands at the last position and nowhere else (45_sequencer R181). -/
theorem ScheduledAt.fin_iff_last {n : Nat} {i : Instr} (h : ScheduledAt n i) : i = .fin ↔ n = 718 := by
  cases h <;> simp <;> omega

/-- ENC stands at the first position and nowhere else (45_sequencer R181). -/
theorem ScheduledAt.enc_iff_first {n : Nat} {i : Instr} (h : ScheduledAt n i) : i = .enc ↔ n = 0 := by
  cases h <;> simp <;> omega

/-! ### The words of the uops of a table row and of a digit decode to them (30_encoding R86, R87) -/

theorem decodeUop_tadd (k : BitVec 6) : decodeUop (uopWord 0 k 0x3) = .ok (.tadd k) := by revert k; decide

theorem decodeUop_c2e : decodeUop (uopWord 0 0 0x4) = .ok .c2e := rfl

theorem decodeUop_te2c (k : BitVec 6) : decodeUop (uopWord 0 k 0x5) = .ok (.te2c k) := by revert k; decide

theorem decodeUop_sel (i : BitVec 6) : decodeUop (uopWord 0 i 0x6) = .ok (.sel i) := by revert i; decide

theorem decodeUop_c2p (j : BitVec 2) : decodeUop (uopWord j 0 0x8) = .ok (.c2p j) := by revert j; decide

theorem decodeUop_dbl (j : BitVec 2) : decodeUop (uopWord j 0 0x9) = .ok (.dbl j) := by revert j; decide

theorem decodeUop_add (i : BitVec 6) : decodeUop (uopWord 0 i 0xA) = .ok (.add i) := by revert i; decide

/-- The three uops of table entry `k`, at positions `3k - 1` to `3k + 1` (42_table_builder R124). -/
theorem tableUop_decodes {k r : Nat} (lo : 1 ≤ k) (hi : k ≤ 7) (hr : r < 3) :
    ∃ i, decodeUop (tableUop k r) = .ok i ∧ ScheduledAt (3 * k - 1 + r) i := by
  have hk : (BitVec.ofNat 6 k).toNat = k := by simp; omega
  obtain rfl | rfl | rfl : r = 0 ∨ r = 1 ∨ r = 2 := by omega
  · refine ⟨_, decodeUop_tadd (BitVec.ofNat 6 k), ?_⟩
    have h := ScheduledAt.tadd (BitVec.ofNat 6 k) (by omega) (by omega)
    rwa [hk] at h
  · refine ⟨_, decodeUop_c2e, ?_⟩
    have h := ScheduledAt.tableC2e k lo hi
    rwa [show 3 * k = 3 * k - 1 + 1 by omega] at h
  · refine ⟨_, decodeUop_te2c (BitVec.ofNat 6 k), ?_⟩
    have h := ScheduledAt.te2c (BitVec.ofNat 6 k) (by omega) (by omega)
    rwa [hk, show 3 * k + 1 = 3 * k - 1 + 2 by omega] at h

/-- The eleven uops of digit `i`, from position `25 + 11 (62 - i)` on (44_evaluator R166). -/
theorem digitUop_decodes {i r : Nat} (hi : i ≤ 62) (hr : r < 11) :
    ∃ u, decodeUop (digitUop i r) = .ok u ∧ ScheduledAt (25 + 11 * (62 - i) + r) u := by
  have hi6 : (BitVec.ofNat 6 i).toNat = i := by simp; omega
  unfold digitUop
  by_cases h10 : r = 10
  · subst h10
    refine ⟨_, decodeUop_add (BitVec.ofNat 6 i), ?_⟩
    have h := ScheduledAt.add (BitVec.ofNat 6 i) (by omega)
    rwa [hi6, show 35 + 11 * (62 - i) = 25 + 11 * (62 - i) + 10 by omega] at h
  by_cases h9 : r = 9
  · subst h9
    refine ⟨_, decodeUop_sel (BitVec.ofNat 6 i), ?_⟩
    have h := ScheduledAt.sel (BitVec.ofNat 6 i) (by omega)
    rwa [hi6, show 34 + 11 * (62 - i) = 25 + 11 * (62 - i) + 9 by omega] at h
  by_cases h8 : r = 8
  · subst h8
    refine ⟨_, decodeUop_c2e, ?_⟩
    have h := ScheduledAt.digitC2e i hi
    rwa [show 33 + 11 * (62 - i) = 25 + 11 * (62 - i) + 8 by omega] at h
  rw [if_neg h10, if_neg h9, if_neg h8]
  by_cases heven : r % 2 = 0
  · have hj : (BitVec.ofNat 2 (r / 2)).toNat = r / 2 := by simp; omega
    refine ⟨_, by rw [if_pos heven]; exact decodeUop_c2p (BitVec.ofNat 2 (r / 2)), ?_⟩
    have h := ScheduledAt.c2p i (BitVec.ofNat 2 (r / 2)) hi
    rwa [hj, show 25 + 11 * (62 - i) + 2 * (r / 2) = 25 + 11 * (62 - i) + r by omega] at h
  · have hj : (BitVec.ofNat 2 ((r - 1) / 2)).toNat = (r - 1) / 2 := by simp; omega
    refine ⟨_, by rw [if_neg heven]; exact decodeUop_dbl (BitVec.ofNat 2 ((r - 1) / 2)), ?_⟩
    have h := ScheduledAt.dbl i (BitVec.ofNat 2 ((r - 1) / 2)) hi
    rwa [hj, show 26 + 11 * (62 - i) + 2 * ((r - 1) / 2) = 25 + 11 * (62 - i) + r by omega] at h

/-- Every position of the schedule holds the word of the uop that 45_sequencer R181 lists for it. -/
theorem sched_decodes {n : Nat} (hn : n ≤ 718) :
    ∃ w i, sched n = some w ∧ decodeUop w = .ok i ∧ ScheduledAt n i := by
  unfold sched
  by_cases h0 : n = 0
  · subst h0; exact ⟨_, .enc, rfl, rfl, .enc⟩
  by_cases h1 : n = 1
  · subst h1; exact ⟨_, .tcache, rfl, rfl, .tcache⟩
  by_cases h22 : n ≤ 22
  · obtain ⟨i, hi, hp⟩ := tableUop_decodes (k := (n - 2) / 3 + 1) (r := (n - 2) % 3) (by omega) (by omega) (by omega)
    rw [show 3 * ((n - 2) / 3 + 1) - 1 + (n - 2) % 3 = n by omega] at hp
    exact ⟨_, i, by rw [if_neg h0, if_neg h1, if_pos h22], hi, hp⟩
  by_cases h23 : n = 23
  · subst h23; exact ⟨_, .sel 63, rfl, rfl, .topSel⟩
  by_cases h24 : n = 24
  · subst h24; exact ⟨_, .addi, rfl, rfl, .addi⟩
  by_cases h717 : n ≤ 717
  · obtain ⟨i, hi, hp⟩ :=
      digitUop_decodes (i := 62 - (n - 25) / 11) (r := (n - 25) % 11) (by omega) (by omega)
    rw [show 25 + 11 * (62 - (62 - (n - 25) / 11)) + (n - 25) % 11 = n by omega] at hp
    exact ⟨_, i, by rw [if_neg h0, if_neg h1, if_neg h22, if_neg h23, if_neg h24, if_pos h717], hi, hp⟩
  · obtain rfl : n = 718 := by omega
    exact ⟨_, .fin, rfl, rfl, .fin⟩

theorem sched_past_last {n : Nat} (hn : 718 < n) : sched n = none := by
  unfold sched
  rw [if_neg, if_neg, if_neg, if_neg, if_neg, if_neg, if_neg] <;> omega

end Sys2Proof.Machine
end

section
/-! What a uop and a host access do to the state, each said once, and what a sequencer turn and a host turn can be. -/

namespace Sys2Proof.Machine

/-! ### Micro-operations -/

/-- The state after a well-formed uop, with the machine's PAU. -/
def uopNext : Instr → State → State
  | .enc => runEnc
  | .tcache => runTcache Config.pau
  | .tadd k => runTadd Config.pau k
  | .c2e => runC2e Config.pau
  | .te2c k => runTe2c Config.pau k
  | .sel i => runSel Config.pau i
  | .addi => runAddi Config.pau
  | .c2p j => runC2p Config.pau j
  | .dbl j => runDbl Config.pau j
  | .add i => runAdd Config.pau i
  | .fin => runFin Config.pau
  | _ => id

theorem exec_uop {i : Instr} (hu : isUop i = true) (hw : i.wf = true) (s : State) :
    exec i s = .next (uopNext i s) := by
  cases i
  case tadd | te2c | add => exact if_pos hw
  case enc | tcache | c2e | sel | addi | c2p | dbl | fin => rfl
  all_goals cases hu

/-! `logged` notes the event and moves on; every other field stays. -/

@[simp] theorem logged_scalar (s : State) (e : Event) : (logged s e).scalar = s.scalar := rfl
@[simp] theorem logged_base (s : State) (e : Event) : (logged s e).base = s.base := rfl
@[simp] theorem logged_result (s : State) (e : Event) : (logged s e).result = s.result := rfl
@[simp] theorem logged_status (s : State) (e : Event) : (logged s e).status = s.status := rfl
@[simp] theorem logged_snapS (s : State) (e : Event) : (logged s e).snapS = s.snapS := rfl
@[simp] theorem logged_snapA (s : State) (e : Event) : (logged s e).snapA = s.snapA := rfl
@[simp] theorem logged_E (s : State) (e : Event) : (logged s e).E = s.E := rfl
@[simp] theorem logged_TBL (s : State) (e : Event) : (logged s e).TBL = s.TBL := rfl
@[simp] theorem logged_R (s : State) (e : Event) : (logged s e).R = s.R := rfl
@[simp] theorem logged_S (s : State) (e : Event) : (logged s e).S = s.S := rfl
@[simp] theorem logged_H (s : State) (e : Event) : (logged s e).H = s.H := rfl
@[simp] theorem logged_C (s : State) (e : Event) : (logged s e).C = s.C := rfl
@[simp] theorem logged_response (s : State) (e : Event) : (logged s e).response = s.response := rfl
@[simp] theorem logged_turns (s : State) (e : Event) : (logged s e).turns = s.turns := rfl
@[simp] theorem logged_upc (s : State) (e : Event) : (logged s e).upc = s.upc + 1 := rfl
@[simp] theorem logged_trace (s : State) (e : Event) : (logged s e).trace = s.trace ++ [e] := rfl

/-! The whole next state, uop by uop. -/

@[simp] theorem uopNext_enc (s : State) :
    uopNext .enc s = logged { s with E := encodeDigits s.snapS } ⟨uopWord 0 0 0x1, [.snapS], []⟩ :=
  runEnc_eq s

@[simp] theorem uopNext_tcache (s : State) :
    uopNext .tcache s = logged { s with TBL := s.TBL.set 0 (Config.pau.e2c s.snapA) }
      ⟨uopWord 0 0 0x2, [.snapA], [.e2c]⟩ :=
  runTcache_eq _ s

@[simp] theorem uopNext_tadd (k : BitVec 6) (s : State) :
    uopNext (.tadd k) s = logged { s with R := Config.pau.add s.snapA (s.TBL.get (tblIndex (k.toNat - 1))) }
      ⟨uopWord 0 k 0x3, [.snapA, .TBL (tblIndex (k.toNat - 1))], [.add]⟩ :=
  runTadd_eq _ k s

@[simp] theorem uopNext_c2e (s : State) :
    uopNext .c2e s = logged { s with H := Config.pau.c2e s.R } ⟨uopWord 0 0 0x4, [.R], [.c2e]⟩ :=
  runC2e_eq _ s

@[simp] theorem uopNext_te2c (k : BitVec 6) (s : State) :
    uopNext (.te2c k) s = logged { s with TBL := s.TBL.set (tblIndex k.toNat).val (Config.pau.e2c s.H) }
      ⟨uopWord 0 k 0x5, [.H], [.e2c]⟩ :=
  runTe2c_eq _ k s

@[simp] theorem uopNext_sel (i : BitVec 6) (s : State) :
    uopNext (.sel i) s = logged { s with C := selected Config.pau s.TBL (s.E.get i.toFin) }
      ⟨uopWord 0 i 0x6, [.E i, .TBL 0, .TBL 1, .TBL 2, .TBL 3, .TBL 4, .TBL 5, .TBL 6, .TBL 7], [.feNeg]⟩ :=
  runSel_eq _ i s

@[simp] theorem uopNext_addi (s : State) :
    uopNext .addi s = logged { s with R := Config.pau.add Config.pau.identityExt s.C }
      ⟨uopWord 0 0 0x7, [.C], [.add]⟩ :=
  runAddi_eq _ s

@[simp] theorem uopNext_c2p (j : BitVec 2) (s : State) :
    uopNext (.c2p j) s = logged { s with S := Config.pau.c2p s.R } ⟨uopWord j 0 0x8, [.R], [.c2p]⟩ :=
  runC2p_eq _ j s

@[simp] theorem uopNext_dbl (j : BitVec 2) (s : State) :
    uopNext (.dbl j) s = logged { s with R := Config.pau.dbl s.S } ⟨uopWord j 0 0x9, [.S], [.dbl]⟩ :=
  runDbl_eq _ j s

@[simp] theorem uopNext_add (i : BitVec 6) (s : State) :
    uopNext (.add i) s = logged { s with R := Config.pau.add s.H s.C } ⟨uopWord 0 i 0xA, [.H, .C], [.add]⟩ :=
  runAdd_eq _ i s

@[simp] theorem uopNext_fin (s : State) :
    uopNext .fin s = { s with
      result := Config.pau.c2e s.R, status := flagsOnFin s.status,
      trace := s.trace ++ [⟨uopWord 0 0 0xB, [.R], [.c2e]⟩] } :=
  runFin_eq _ s

/-- A uop other than FIN writes at most the working registers (10_state R29 to R34), and only ENC the digit file. -/
theorem uopNext_of_ne_fin {i : Instr} (hu : isUop i = true) (hf : i ≠ .fin) (s : State) :
    ∃ E TBL R S H C e, uopNext i s = logged { s with E := E, TBL := TBL, R := R, S := S, H := H, C := C } e ∧
      (i ≠ .enc → E = s.E) := by
  cases i
  case enc => exact ⟨_, _, _, _, _, _, _, uopNext_enc s, fun h => absurd rfl h⟩
  case tcache => exact ⟨_, _, _, _, _, _, _, uopNext_tcache s, fun _ => rfl⟩
  case tadd k => exact ⟨_, _, _, _, _, _, _, uopNext_tadd k s, fun _ => rfl⟩
  case c2e => exact ⟨_, _, _, _, _, _, _, uopNext_c2e s, fun _ => rfl⟩
  case te2c k => exact ⟨_, _, _, _, _, _, _, uopNext_te2c k s, fun _ => rfl⟩
  case sel d => exact ⟨_, _, _, _, _, _, _, uopNext_sel d s, fun _ => rfl⟩
  case addi => exact ⟨_, _, _, _, _, _, _, uopNext_addi s, fun _ => rfl⟩
  case c2p j => exact ⟨_, _, _, _, _, _, _, uopNext_c2p j s, fun _ => rfl⟩
  case dbl j => exact ⟨_, _, _, _, _, _, _, uopNext_dbl j s, fun _ => rfl⟩
  case add d => exact ⟨_, _, _, _, _, _, _, uopNext_add d s, fun _ => rfl⟩
  case fin => exact absurd rfl hf
  all_goals cases hu

/-- No uop writes SCALAR, BASE, a snapshot or the turns to come (10_state R24 to R28). -/
theorem uopNext_keeps_inputs {i : Instr} (hu : isUop i = true) (s : State) :
    (uopNext i s).scalar = s.scalar ∧ (uopNext i s).base = s.base ∧ (uopNext i s).snapS = s.snapS ∧
      (uopNext i s).snapA = s.snapA ∧ (uopNext i s).turns = s.turns := by
  by_cases hf : i = .fin
  · simp [hf]
  · obtain ⟨E, TBL, R, S, H, C, e, h, -⟩ := uopNext_of_ne_fin hu hf s
    simp [h]

/-! ### The sequencer's turn -/

/-- At each position of the schedule one uop runs, in every running state that is there (45_sequencer R182). -/
theorem exists_uop_at {n : Nat} (hn : n ≤ 718) :
    ∃ i, ScheduledAt n i ∧ ∀ s : State, s.status.busy = true → s.upc.toNat = n →
      sequencerTurn s = .next (uopNext i s) := by
  obtain ⟨w, i, hw, hi, hp⟩ := sched_decodes hn
  refine ⟨i, hp, fun s hb hs => ?_⟩
  rw [sequencerTurn_of_sched hb (hs ▸ hw) hi, exec_uop hp.isUop hp.wf]

/-- A sequencer turn that goes on passes over an idle block, or runs the uop scheduled at `upc`. -/
theorem sequencerTurn_cases {s t : State} (h : sequencerTurn s = .next t) :
    (s.status.busy = false ∧ t = s) ∨
    (s.status.busy = true ∧ ∃ i, ScheduledAt s.upc.toNat i ∧ t = uopNext i s) := by
  cases hb : s.status.busy
  · rw [sequencerTurn_of_idle hb] at h
    exact .inl ⟨rfl, by simpa using h.symm⟩
  · by_cases hn : s.upc.toNat ≤ 718
    · obtain ⟨i, hp, hi⟩ := exists_uop_at hn
      rw [hi s hb rfl] at h
      exact .inr ⟨rfl, i, hp, by simpa using h.symm⟩
    · simp [sequencerTurn, hb, sched_past_last (Nat.lt_of_not_le hn)] at h

/-! ### The host's turn -/

/-- What an access does to the state before it is answered (46_host_interface R200 to R208). -/
inductive HostEffect (s : State) : State → Prop where
  | none : HostEffect s s
  | start : HostEffect s (start s)
  | writeStatus (v : Word) : HostEffect s (clearByStatusWrite v s)
  | writeScalar (v : BitVec 256) : HostEffect s { s with scalar := v }
  | writeBase (p : ExtPoint) : HostEffect s { s with base := p }

theorem exec_host_effect {i : Instr} (h : isUop i = false) (s : State) :
    ∃ r u, HostEffect s u ∧ exec i s = .next (respond r u) := by
  cases i
  case wrCtrlStart => exact ⟨_, _, .start, rfl⟩
  case wrStatus v => exact ⟨_, _, .writeStatus v, rfl⟩
  case wrScalar => exact ⟨_, _, .writeScalar _, rfl⟩
  case wrBase => exact ⟨_, _, .writeBase _, rfl⟩
  case enc | tcache | tadd | c2e | te2c | sel | addi | c2p | dbl | add | fin => cases h
  all_goals exact ⟨_, _, .none, rfl⟩

/-- A host turn completes with one of the effects and an answer, a bus error included (60_exceptions R221). -/
theorem hostTurn_effect (a : Access) (s : State) :
    ∃ r u, HostEffect s u ∧ hostTurn a s = .next (respond r u) := by
  unfold hostTurn
  cases hd : decodeAccess a with
  | ok i => exact exec_host_effect (isUop_of_decodeAccess hd) s
  | reject why => exact ⟨_, _, .none, rfl⟩

theorem hostTurn_cases {a : Access} {s t : State} (h : hostTurn a s = .next t) :
    ∃ r u, HostEffect s u ∧ t = respond r u := by
  obtain ⟨r, u, hu, hr⟩ := hostTurn_effect a s
  rw [hr] at h
  exact ⟨r, u, hu, by simpa using h.symm⟩

/-- No access writes RESULT (46_host_interface R202). -/
theorem HostEffect.result {s u : State} (h : HostEffect s u) : u.result = s.result := by
  cases h with
  | start => obtain ⟨-, h⟩ | ⟨-, -, h⟩ | ⟨-, -, h⟩ := start_cases s <;> simp [h]
  | _ => rfl

end Sys2Proof.Machine
end

section
/-! The legal states (10_state R23, R29, R40): reset is legal, and every step keeps the legal states. -/

namespace Sys2Proof.Machine

/-! ### What makes a state legal -/

/-- The legality of a state is a matter of STATUS, `upc`, SNAP_S and E only. -/
theorem State.Inv.congr {s t : State} (h : s.Inv) (hst : t.status = s.status) (hu : t.upc = s.upc)
    (hs : t.snapS = s.snapS) (hE : t.E = s.E) : t.Inv := by
  obtain ⟨hbusy, herr, hupc, hscalar, hdigits⟩ := h
  rw [← hst] at hbusy herr hupc hscalar hdigits
  rw [← hu, ← hs, ← hE] at hdigits
  exact ⟨hbusy, herr, hu ▸ hupc, hs ▸ hscalar, hdigits⟩

/-- An idle state is legal when its ERRCODE says whether ERR is set. -/
theorem State.Inv.of_idle {s : State} (hb : s.status.busy = false)
    (he : s.status.errcode = if s.status.err then 1 else 0) : s.Inv := by
  constructor <;> simp [hb, he]

/-- Settles O34: the block is idle after reset, with no error. -/
theorem resetStateIsLegal : Obligations.ResetStateIsLegal :=
  State.Inv.of_idle rfl rfl

/-! ### Host accesses -/

theorem getWord_seven_bit31 (v : BitVec 256) : (getWord v 7).getLsbD 31 = v.msb := by
  simp [getWord, BitVec.msb_eq_getLsbD_last]

/-- START leaves a legal state: the entry check lets only a scalar below `2^255` in (46_host_interface R204 to R207). -/
theorem start_keeps_inv {s : State} (h : s.Inv) : (start s).Inv := by
  obtain ⟨-, hs⟩ | ⟨-, hmsb, hs⟩ | ⟨hb, -, hs⟩ := start_cases s <;> rw [hs]
  · exact h
  · rw [getWord_seven_bit31] at hmsb
    have hlt : s.scalar.toNat < 2 ^ 255 := BitVec.toNat_lt_of_msb_false hmsb
    exact ⟨fun _ => ⟨rfl, rfl⟩, rfl, fun _ => by simp, fun _ => hlt, fun _ hpos => absurd hpos (by simp)⟩
  · exact .of_idle hb rfl

/-- A STATUS write by its bits 1 and 2 (46_host_interface R208). -/
theorem writeStatus_eq (st : Status) (v : Word) :
    writeStatus st v = ⟨st.busy, st.done && !v.getLsbD 1, st.err && !v.getLsbD 2,
      if v.getLsbD 2 then 0 else st.errcode⟩ := by
  unfold writeStatus
  cases v.getLsbD 1 <;> cases v.getLsbD 2 <;> simp

/-- A STATUS write sets no flag, and clears ERR and ERRCODE together (46_host_interface R208). -/
theorem statusWrite_keeps_inv {s : State} (v : Word) (h : s.Inv) : (clearByStatusWrite v s).Inv := by
  have hst : (clearByStatusWrite v s).status = _ := writeStatus_eq s.status v
  constructor <;> rw [hst]
  case busy_alone =>
    intro hb
    obtain ⟨hdone, herr⟩ := h.busy_alone hb
    simp [hdone, herr]
  case errcode_of_err => cases v.getLsbD 2 <;> simp [h.errcode_of_err]
  case upc_in_range => exact h.upc_in_range
  case scalar_in_range => exact h.scalar_in_range
  case digits_encoded => exact h.digits_encoded

theorem HostEffect.keeps_inv {s u : State} (hu : HostEffect s u) (h : s.Inv) : u.Inv := by
  cases hu with
  | none => exact h
  | start => exact start_keeps_inv h
  | writeStatus v => exact statusWrite_keeps_inv v h
  | writeScalar v => exact h.congr rfl rfl rfl rfl
  | writeBase p => exact h.congr rfl rfl rfl rfl

theorem hostTurn_keeps_inv {s t : State} {a : Access} (ht : hostTurn a s = .next t) (h : s.Inv) : t.Inv := by
  obtain ⟨r, u, hu, rfl⟩ := hostTurn_cases ht
  exact (hu.keeps_inv h).congr rfl rfl rfl rfl

/-! ### Sequencer turns -/

/-- After any scheduled uop but FIN the digits are those of the scalar: ENC, at position 0, has written them. -/
theorem uopNext_digits {s : State} {i : Instr} (hp : ScheduledAt s.upc.toNat i) (hf : i ≠ .fin)
    (hb : s.status.busy = true) (h : s.Inv) : (uopNext i s).E = encodeDigits s.snapS := by
  by_cases he : i = .enc
  · rw [he, uopNext_enc, logged_E]
  · obtain ⟨E, TBL, R, S, H, C, e, hi, hE⟩ := uopNext_of_ne_fin hp.isUop hf s
    have hfirst : s.upc.toNat ≠ 0 := fun hn => he (hp.enc_iff_first.mpr hn)
    rw [hi, logged_E, hE he]
    exact h.digits_encoded hb (by omega)

/-- The scheduled uop leaves a legal state: FIN, at position 718, ends BUSY, and every other uop has a next position. -/
theorem uopNext_keeps_inv {s : State} {i : Instr} (hp : ScheduledAt s.upc.toNat i) (hb : s.status.busy = true)
    (h : s.Inv) : (uopNext i s).Inv := by
  by_cases hf : i = .fin
  · rw [hf, uopNext_fin]
    exact .of_idle rfl h.errcode_of_err
  · have hnext : (s.upc + 1).toNat ≤ 718 := by
      have hlast := hp.le_last
      have hnotLast : s.upc.toNat ≠ 718 := fun hn => hf (hp.fin_iff_last.mpr hn)
      rw [hp.toNat_upc_succ]
      omega
    have hE := uopNext_digits hp hf hb h
    obtain ⟨E, TBL, R, S, H, C, e, hi, -⟩ := uopNext_of_ne_fin hp.isUop hf s
    rw [hi] at hE ⊢
    exact ⟨h.busy_alone, h.errcode_of_err, fun _ => hnext, h.scalar_in_range, fun _ _ => hE⟩

theorem sequencerTurn_keeps_inv {s t : State} (ht : sequencerTurn s = .next t) (h : s.Inv) : t.Inv := by
  obtain ⟨-, rfl⟩ | ⟨hb, i, hp, rfl⟩ := sequencerTurn_cases ht
  · exact h
  · exact uopNext_keeps_inv hp hb h

/-- Settles O35: by the agent whose turn it is. -/
theorem stepKeepsTheLegalStates : Obligations.StepKeepsTheLegalStates := by
  intro s t h hstep
  have hturns (rest : List Turn) : ({ s with turns := rest } : State).Inv := h.congr rfl rfl rfl rfl
  obtain ⟨l, rest, -, rfl⟩ | ⟨-, ⟨a, rest, -, ht⟩ | ⟨rest, -, ht⟩ | ⟨-, ht⟩⟩ := step_cases hstep
  · exact resetStateIsLegal.congr rfl rfl rfl rfl
  · exact hostTurn_keeps_inv ht (hturns rest)
  · exact sequencerTurn_keeps_inv ht (hturns rest)
  · exact sequencerTurn_keeps_inv ht h

end Sys2Proof.Machine
end

section
/-! The architectural registers (10_state R24 to R26, R38, R41): who writes them, and what the window shows of them. -/

namespace Sys2Proof.Machine

/-! ### The sequencer against the host-visible registers -/

/-- Settles O8: with a legal ERRCODE the step is the sequencer's turn, and that passes over an idle block. -/
theorem idleSequencerTakesNoStep : Obligations.IdleSequencerTakesNoStep := by
  intro s hb he
  constructor
  · intro rest ht
    rw [step_of_sequencer ht he]
    exact sequencerTurn_of_idle hb
  · intro ht
    rw [step_of_no_turn ht he]
    exact sequencerTurn_of_idle hb

/-- Settles O39: no uop of the schedule writes SCALAR or BASE. -/
theorem sequencerKeepsScalarAndBase : Obligations.SequencerKeepsScalarAndBase := by
  intro s t h
  obtain ⟨-, rfl⟩ | ⟨-, i, hp, rfl⟩ := sequencerTurn_cases h
  · exact ⟨rfl, rfl⟩
  · obtain ⟨hscalar, hbase, -⟩ := uopNext_keeps_inputs hp.isUop s
    exact ⟨hscalar, hbase⟩

/-- A sequencer turn that changes RESULT is the last uop, FIN (44_evaluator R169). -/
theorem sequencerTurn_changes_result {s t : State} (h : sequencerTurn s = .next t) (hr : t.result ≠ s.result) :
    s.status.busy = true ∧ s.upc = 718 ∧ t = uopNext .fin s := by
  obtain ⟨-, rfl⟩ | ⟨hb, i, hp, rfl⟩ := sequencerTurn_cases h
  · exact absurd rfl hr
  · by_cases hf : i = .fin
    · subst hf
      exact ⟨hb, BitVec.eq_of_toNat_eq (hp.fin_iff_last.mp rfl), rfl⟩
    · obtain ⟨E, TBL, R, S, H, C, e, hi, -⟩ := uopNext_of_ne_fin hp.isUop hf s
      exact absurd (congrArg State.result hi) hr

/-- No access changes RESULT, whatever it is (46_host_interface R202). -/
theorem hostTurn_result {s t : State} {a : Access} (h : hostTurn a s = .next t) : t.result = s.result := by
  obtain ⟨r, u, hu, rfl⟩ := hostTurn_cases h
  exact hu.result

/-- Settles O38: by the agent whose turn it is: a host's turn never changes RESULT, and the sequencer's only at FIN. -/
theorem resultChangesOnlyAtFinOrReset : Obligations.ResultChangesOnlyAtFinOrReset := by
  intro s t hstep hr
  obtain ⟨l, rest, ht, -⟩ | ⟨-, ⟨a, rest, -, ht⟩ | ⟨rest, -, ht⟩ | ⟨-, ht⟩⟩ := step_cases hstep
  · exact .inl ⟨l, rest, ht⟩
  · exact absurd (hostTurn_result ht) hr
  all_goals
    obtain ⟨hb, hu, rfl⟩ := sequencerTurn_changes_result ht hr
    rw [uopNext_fin]
    exact .inr ⟨hb, hu, rfl, rfl, rfl⟩

/-! ### The bytes of SCALAR -/

/-- Byte `k` of a register after one of its words is written (10_state R24): byte `k mod 4` of the word written, where
that is word `k / 4`. -/
theorem scalarByte_setWord (v : BitVec 256) (w : BitVec 3) (d : Word) (k : Nat) :
    scalarByte (setWord v w d) k = if k / 4 = w.toNat then d.extractLsb' (8 * (k % 4)) 8 else scalarByte v k := by
  apply BitVec.eq_of_getLsbD_eq
  intro i hi
  by_cases hk : k / 4 = w.toNat
  · have hin : 32 * w.toNat ≤ 8 * k + i ∧ 8 * k + i < 32 * w.toNat + 32 := by omega
    have hbit : 8 * k + i - 32 * w.toNat = 8 * (k % 4) + i := by omega
    simp [scalarByte, getLsbD_setWord, hk, hin, hbit, hi]
  · have hout : ¬ (32 * w.toNat ≤ 8 * k + i ∧ 8 * k + i < 32 * w.toNat + 32) := by omega
    simp [scalarByte, getLsbD_setWord, hk, hout]

/-- Settles O16: byte by byte, from what a word's write does to each byte. -/
theorem scalarBytesAreLittleEndian : Obligations.ScalarBytesAreLittleEndian := by
  intro s w d
  refine ⟨_, rfl, fun j hj => ?_, fun k _ hk => ?_⟩
  · have hword : (4 * w.toNat + j) / 4 = w.toNat := by omega
    have hbyte : (4 * w.toNat + j) % 4 = j := by omega
    rw [respond_scalar, scalarByte_setWord, if_pos hword, hbyte]
  · rw [respond_scalar, scalarByte_setWord, if_neg hk]

/-! ### The window after reset -/

/-- Every aligned offset names a row (30_encoding R82: the decoder is total). -/
theorem targetOf_aligned (x : BitVec 7) : ∃ t, targetOf (x ++ 0#2 : BitVec (7 + 2)) = some t := by
  have h : ∀ x : BitVec 7, (targetOf (x ++ 0#2 : BitVec (7 + 2))).isSome := by decide
  exact Option.isSome_iff_exists.mp (h x)

/-- A bit of a transaction word, by its fields (30_encoding R81). -/
theorem getLsbD_transactionWord (we : Bool) (off : BitVec 9) (d : Word) (i : Nat) :
    (transactionWord we off d).getLsbD i =
      if i < 32 then d.getLsbD i else if i < 41 then off.getLsbD (i - 32) else (decide (i = 41) && we) := by
  change (BitVec.ofBool we ++ off ++ d : BitVec (1 + 9 + 32)).getLsbD i = _
  rw [BitVec.getLsbD_append, BitVec.getLsbD_append, BitVec.getLsbD_ofBool]
  by_cases h32 : i < 32
  · rw [if_pos h32, if_pos h32]
  by_cases h41 : i < 41
  · rw [if_neg h32, if_neg h32, if_pos (by omega), if_pos h41]
  · have hwe : i - 32 - 9 = 0 ↔ i = 41 := by omega
    rw [if_neg h32, if_neg h32, if_neg (by omega), if_neg h41]
    simp only [hwe]

theorem extractLsb'_offset_transactionWord (we : Bool) (off : BitVec 9) (d : Word) :
    (transactionWord we off d).extractLsb' 32 9 = off := by
  apply BitVec.eq_of_getLsbD_eq
  intro i hi
  have hlo : ¬ 32 + i < 32 := by omega
  have hhi : 32 + i < 41 := by omega
  rw [BitVec.getLsbD_extractLsb', getLsbD_transactionWord, if_neg hlo, if_pos hhi, Nat.add_sub_cancel_left]
  simp only [hi, decide_true, Bool.true_and]

/-- An aligned 32-bit read decodes to the read of what its offset names (30_encoding R82). -/
theorem decodeAccess_read {off : BitVec 9} (h : off.toNat % 4 = 0) :
    ∃ t, decodeAccess ⟨off, 32, .read⟩ = .ok (readInstr t) := by
  have hlow : off.extractLsb' 0 2 = 0#2 := by
    apply BitVec.eq_of_toNat_eq
    simpa using h
  have hoff : (off.extractLsb' 2 7 ++ 0#2 : BitVec (7 + 2)) = off := by
    rw [← hlow]
    exact (BitVec.extractLsb'_append_extractLsb'_eq_extractLsb' rfl).trans BitVec.extractLsb'_eq_self
  obtain ⟨t, ht⟩ := targetOf_aligned (off.extractLsb' 2 7)
  rw [hoff] at ht
  refine ⟨t, ?_⟩
  simp only [decodeAccess, Access.word, decodeHost, extractLsb'_offset_transactionWord, getLsbD_transactionWord, hlow,
    ht]
  rfl

/-- Every word of a zero point is zero. -/
theorem getPointWord_zeroExt (c : Coord) (w : BitVec 3) : getPointWord zeroExt c w = 0 := by
  cases c <;> simp [getPointWord, getCoord, zeroExt, getWord]

/-- After reset every read answers 0, whatever it reads (46_host_interface R200). -/
theorem exec_readInstr_reset (t : Target) :
    exec (readInstr t) State.reset = .next (respond (.readData 0) State.reset) := by
  cases t
  case status => exact congrArg (answerRead · _) (show statusWord Status.reset = 0 by decide)
  case base c w | res c w => exact congrArg (answerRead · _) (getPointWord_zeroExt c w)
  all_goals rfl

/-- Settles O11: the read decodes to the read of some word, and each of them answers 0. -/
theorem everyWindowWordReadsZeroAfterReset : Obligations.EveryWindowWordReadsZeroAfterReset := by
  intro off h
  obtain ⟨t, ht⟩ := decodeAccess_read h
  have he : State.reset.status.errcode.toNat ≤ 1 := by decide
  refine ⟨respond (.readData 0) State.reset, ?_, rfl⟩
  calc step { State.reset with turns := [rd off] }
    _ = hostTurn ⟨off, 32, .read⟩ State.reset := step_of_host rfl he
    _ = exec (readInstr t) State.reset := hostTurn_of_decoded ht
    _ = .next (respond (.readData 0) State.reset) := exec_readInstr_reset t

end Sys2Proof.Machine
end

section
/-! No operation reads a register that it has not itself written (10_state R35): two operations with the same snapshots
agree, at each position, on the registers written before it. -/

namespace Sys2Proof.Machine

/-- Two states agree on the snapshots and on every working register that an operation has written before position `n`
(42_table_builder R120 to R124, 44_evaluator R160 to R165). -/
structure AgreeAt (n : Nat) (s s' : State) : Prop where
  snapS : s.snapS = s'.snapS
  snapA : s.snapA = s'.snapA
  E     : 1 ≤ n → s.E = s'.E
  TBL   : ∀ k : Fin 8, 3 * k.val + 2 ≤ n → s.TBL.get k = s'.TBL.get k
  R     : 3 ≤ n → s.R = s'.R
  H     : 4 ≤ n → s.H = s'.H
  C     : 24 ≤ n → s.C = s'.C
  S     : 26 ≤ n → s.S = s'.S

section
variable {n : Nat} {s s' : State} {i : Instr}

/-- From position 23 on the whole table is written. -/
theorem AgreeAt.table (h : AgreeAt n s s') (hn : 23 ≤ n) : s.TBL = s'.TBL := by
  apply Vector.ext
  intro k hk
  exact h.TBL ⟨k, hk⟩ (by change 3 * k + 2 ≤ n; omega)

theorem AgreeAt.next_E (h : AgreeAt n s s') (hp : ScheduledAt n i) : (uopNext i s).E = (uopNext i s').E := by
  cases hp with
  | enc => simp [h.snapS]
  | _ => simpa using h.E (by omega)

theorem AgreeAt.next_TBL (h : AgreeAt n s s') (hp : ScheduledAt n i) (k : Fin 8) (hk : 3 * k.val + 2 ≤ n + 1) :
    (uopNext i s).TBL.get k = (uopNext i s').TBL.get k := by
  cases hp with
  | tcache =>
    obtain rfl : k = 0 := by omega
    simp [h.snapA, Vector.get_eq_getElem]
  | te2c m lo hi =>
    by_cases hm : k.val = m.toNat
    · simp [h.H (by omega), Vector.get_eq_getElem, tblIndex_val _ hi, hm]
    · have hother : ¬ m.toNat = k.val := fun he => hm he.symm
      simpa [Vector.get_eq_getElem, tblIndex_val _ hi, Vector.getElem_set, hother] using h.TBL k (by omega)
  | _ => simpa using h.TBL k (by omega)

theorem AgreeAt.next_R (h : AgreeAt n s s') (hp : ScheduledAt n i) (hn : 3 ≤ n + 1) :
    (uopNext i s).R = (uopNext i s').R := by
  cases hp with
  | tadd k lo hi =>
    have hk : (tblIndex (k.toNat - 1)).val = k.toNat - 1 := tblIndex_val _ (by omega)
    simp [h.snapA, h.TBL (tblIndex (k.toNat - 1)) (by omega)]
  | addi => simp [h.C]
  | dbl => simp [h.S (by omega)]
  | add => simp [h.H (by omega), h.C (by omega)]
  | _ => simpa using h.R (by omega)

theorem AgreeAt.next_H (h : AgreeAt n s s') (hp : ScheduledAt n i) (hn : 4 ≤ n + 1) :
    (uopNext i s).H = (uopNext i s').H := by
  cases hp with
  | tableC2e | digitC2e => simp [h.R (by omega)]
  | _ => simpa using h.H (by omega)

theorem AgreeAt.next_C (h : AgreeAt n s s') (hp : ScheduledAt n i) (hn : 24 ≤ n + 1) :
    (uopNext i s).C = (uopNext i s').C := by
  cases hp with
  | topSel | sel => simp [h.E (by omega), h.table (by omega)]
  | _ => simpa using h.C (by omega)

theorem AgreeAt.next_S (h : AgreeAt n s s') (hp : ScheduledAt n i) (hn : 26 ≤ n + 1) :
    (uopNext i s).S = (uopNext i s').S := by
  cases hp with
  | c2p => simp [h.R (by omega)]
  | _ => simpa using h.S (by omega)

/-- The scheduled uop keeps the agreement: what it reads was written before it, and it writes what counts as written
from the next position on. -/
theorem AgreeAt.next (h : AgreeAt n s s') (hp : ScheduledAt n i) : AgreeAt (n + 1) (uopNext i s) (uopNext i s') := by
  obtain ⟨-, -, hS, hA, -⟩ := uopNext_keeps_inputs hp.isUop s
  obtain ⟨-, -, hS', hA', -⟩ := uopNext_keeps_inputs hp.isUop s'
  exact ⟨by rw [hS, hS', h.snapS], by rw [hA, hA', h.snapA], fun _ => h.next_E hp, h.next_TBL hp, h.next_R hp,
    h.next_H hp, h.next_C hp, h.next_S hp⟩

end

/-! ### Runs with no turn listed -/

/-- A running operation at position `n`, with no turn listed: the sequencer goes on by itself (log 5). -/
structure State.RunsAt (n : Nat) (s : State) : Prop where
  busy    : s.status.busy = true
  errcode : s.status.errcode.toNat ≤ 1
  turns   : s.turns = []
  upc     : s.upc.toNat = n

/-- At each position of the schedule one uop is the step of every operation there. -/
theorem exists_step_at {n : Nat} (hn : n ≤ 718) :
    ∃ i, ScheduledAt n i ∧ ∀ s : State, s.RunsAt n → step s = .next (uopNext i s) := by
  obtain ⟨i, hp, hi⟩ := exists_uop_at hn
  exact ⟨i, hp, fun s hs => (step_of_no_turn hs.turns hs.errcode).trans (hi s hs.busy hs.upc)⟩

/-- A uop other than FIN leaves the operation running, at the next position. -/
theorem State.RunsAt.next {n : Nat} {s : State} {i : Instr} (hs : s.RunsAt n) (hp : ScheduledAt n i) (hf : i ≠ .fin) :
    (uopNext i s).RunsAt (n + 1) := by
  obtain ⟨E, TBL, R, S, H, C, e, hi, -⟩ := uopNext_of_ne_fin hp.isUop hf s
  have hupc : (s.upc + 1).toNat = n + 1 := by
    rw [← hs.upc] at hp ⊢
    exact hp.toNat_upc_succ
  rw [hi]
  exact ⟨hs.busy, hs.errcode, hs.turns, hupc⟩

/-- Two running operations that agree at position `n` end, `719 - n` uops later, with the same RESULT and the same
working registers. -/
theorem run_to_fin_agrees {m n : Nat} (hmn : n + m = 718) {s s' : State} (hs : s.RunsAt n) (hs' : s'.RunsAt n)
    (h : AgreeAt n s s') :
    ∃ t t', runSteps (m + 1) s = .next t ∧ runSteps (m + 1) s' = .next t' ∧ t.result = t'.result ∧
      AgreeAt 719 t t' := by
  induction m generalizing n s s' with
  | zero =>
    obtain rfl : n = 718 := hmn
    obtain ⟨i, hp, hstep⟩ := exists_step_at (Nat.le_refl 718)
    obtain rfl : i = .fin := hp.fin_iff_last.mpr rfl
    refine ⟨_, _, by simp only [runSteps, hstep s hs], by simp only [runSteps, hstep s' hs'], ?_, h.next hp⟩
    simp [h.R]
  | succ m ih =>
    obtain ⟨i, hp, hstep⟩ := exists_step_at (n := n) (by omega)
    have hf : i ≠ .fin := fun hi => by have := hp.fin_iff_last.mp hi; omega
    rw [runSteps, hstep s hs, runSteps, hstep s' hs']
    exact ih (by omega) (hs.next hp hf) (hs'.next hp hf) (h.next hp)

/-- An operation about to run its first uop is at position 0. -/
theorem State.AtFirstUop.runsAt {s : State} (h : s.AtFirstUop) (ht : s.turns = []) : s.RunsAt 0 := by
  obtain ⟨hinv, hb, hu⟩ := h
  refine ⟨hb, ?_, ht, by simp [hu]⟩
  rw [hinv.errcode_of_err]
  split <;> decide

/-- Settles O49: at position 0 the snapshots are all there is to agree on, and at 719 every working register is. -/
theorem resultDependsOnTheSnapshotsOnly : Obligations.ResultDependsOnTheSnapshotsOnly := by
  intro s s' hs hs' ht ht' hS hA
  have h0 : AgreeAt 0 s s' := by constructor <;> simp [hS, hA]
  obtain ⟨t, t', hr, hr', hres, h⟩ := run_to_fin_agrees (m := 718) rfl (hs.runsAt ht) (hs'.runsAt ht') h0
  exact ⟨t, t', hr, hr', hres, h.E (by decide), h.table (by decide), h.R (by decide), h.S (by decide),
    h.H (by decide), h.C (by decide)⟩

end Sys2Proof.Machine
end

section
/-! The port and the memory windows (20_memory): the offset of an address, the accesses that are bus errors, and the
registers a running operation does not read. -/

namespace Sys2Proof.Machine

/-! ### The window's addresses -/

/-- The window starts at a multiple of its length (20_memory R61), so taking its base address off an address in it
leaves the low nine bits. -/
theorem ofNat_sub_baseAddr {addr : Nat} (h : Config.baseAddr ≤ addr) :
    BitVec.ofNat 9 (addr - Config.baseAddr) = BitVec.ofNat 9 addr := by
  unfold Config.baseAddr at h ⊢
  apply BitVec.eq_of_toNat_eq
  simp only [BitVec.toNat_ofNat]
  omega

/-- Settles O50: by whether the address lies in the window. -/
theorem windowOffsetIsTheLowNineBits : Obligations.WindowOffsetIsTheLowNineBits := by
  refine ⟨Nat.mul_mod_right _ _, fun addr => ⟨fun hlo hhi => ?_, fun hout => ?_⟩⟩
  · rw [windowOffset, if_pos ⟨hlo, hhi⟩, ofNat_sub_baseAddr hlo]
  · exact if_neg (by omega)

/-! ### Bus errors -/

theorem Access.extractLsb'_offset_word (a : Access) : a.word.extractLsb' 32 9 = a.off := by
  unfold Access.word
  split <;> exact extractLsb'_offset_transactionWord _ _ _

/-- A transaction word that decodes has an aligned offset (30_encoding R82, step 2). -/
theorem aligned_of_decodeHost {ht : BitVec 42} {i : Instr} (h : decodeHost ht = .ok i) :
    (ht.extractLsb' 32 9).toNat % 4 = 0 := by
  unfold decodeHost at h
  dsimp only at h
  split at h
  · cases h
  · next hlow => simpa using congrArg BitVec.toNat (Decidable.not_not.mp hlow)

/-- An access that decodes has passed the checks of 30_encoding R82: its size, a write's byte enables, its alignment. -/
theorem checks_of_decodeAccess {a : Access} {i : Instr} (h : decodeAccess a = .ok i) :
    a.sizeBits = 32 ∧ (∀ be v, a.op = .write be v → be = 0xF) ∧ a.off.toNat % 4 = 0 := by
  have haligned (hw : decodeHost a.word = .ok i) : a.off.toNat % 4 = 0 := by
    simpa only [Access.extractLsb'_offset_word] using aligned_of_decodeHost hw
  unfold decodeAccess at h
  split at h
  · cases h
  · next hsize =>
    refine ⟨Decidable.not_not.mp hsize, ?_⟩
    split at h
    · next hread => exact ⟨fun be v hop => by simp [hread] at hop, haligned h⟩
    · next be v hwrite =>
      split at h
      · cases h
      · next hbe =>
        refine ⟨fun be' v' hop => ?_, haligned h⟩
        cases hwrite.symm.trans hop
        exact Decidable.not_not.mp hbe

/-- A host turn whose access does not decode is a bus error (60_exceptions R221). -/
theorem hostTurn_of_rejected {s : State} {a : Access} {why : Reject} (h : decodeAccess a = .reject why) :
    hostTurn a s = .next (raiseError (.busError a.off) s) := by
  simp only [hostTurn, h]

/-- Settles O9: such an access fails one of the checks it would have to pass to decode. -/
theorem badAccessIsABusErrorThatChangesNothing : Obligations.BadAccessIsABusErrorThatChangesNothing := by
  intro s a rest ht he hbad
  rw [step_of_host ht he]
  cases hd : decodeAccess a with
  | reject why => exact hostTurn_of_rejected hd
  | ok i =>
    obtain ⟨hsize, hbe, haligned⟩ := checks_of_decodeAccess hd
    obtain h | ⟨be, v, hop, h⟩ | h := hbad
    · exact absurd hsize h
    · exact absurd (hbe be v hop) h
    · exact absurd haligned h

/-! ### The input registers and the running operation -/

/-- A uop reads neither SCALAR nor BASE (20_memory R76): replacing them before it or after it is the same. -/
theorem uopNext_replace_inputs {i : Instr} (hu : isUop i = true) (s : State) (v : BitVec 256) (p : ExtPoint) :
    uopNext i { s with scalar := v, base := p } = { uopNext i s with scalar := v, base := p } := by
  cases i
  case enc => rw [uopNext_enc, uopNext_enc]; rfl
  case tcache | tadd | c2e | te2c | sel | addi | c2p | dbl | add | fin => rfl
  all_goals cases hu

/-- Settles O40: the turn of an idle block passes; that of a running one is the same uop, since BUSY and `upc` choose
it, and a uop reads neither register. -/
theorem runningOperationIgnoresTheInputRegisters : Obligations.RunningOperationIgnoresTheInputRegisters := by
  intro s t v p h
  obtain ⟨hb, rfl⟩ | ⟨hb, j, hj, -⟩ := sequencerTurn_cases h
  · exact sequencerTurn_of_idle hb
  · obtain ⟨i, hp, hrun⟩ := exists_uop_at hj.le_last
    rw [hrun s hb rfl] at h
    cases h
    have hreplaced := hrun { s with scalar := v, base := p } hb rfl
    rwa [uopNext_replace_inputs hp.isUop] at hreplaced

end Sys2Proof.Machine
end

section
/-! The encodings (30_encoding): what a transaction word and a uop word decode to, and that the encoder is the inverse. -/

namespace Sys2Proof

open Machine

/-! ### The offsets of the window (30_encoding R83) -/

theorem extractLsb'_low_eq_zero_iff (off : BitVec 9) : off.extractLsb' 0 2 = 0 ↔ off.toNat % 4 = 0 := by
  simp [← BitVec.toNat_inj]

theorem Target.offset_aligned (t : Target) : t.offset.toNat % 4 = 0 := by
  cases t
  case ctrl | status => rfl
  case scalar w | rsvd008 w | rsvd010 w | rsvd020 w | rsvd060 w | rsvd180 w => revert w; decide
  case base c w | res c w => cases c <;> revert w <;> decide

/-- The row of a target's offset is the target. -/
theorem targetOf_offset (t : Target) : targetOf t.offset = some t := by
  cases t
  case ctrl | status => rfl
  case scalar w | rsvd008 w | rsvd010 w | rsvd020 w | rsvd060 w | rsvd180 w => revert w; decide
  case base c w | res c w => cases c <;> revert w <;> decide

/-- Every aligned offset is the offset of its target (30_encoding R82, "the decoder is total"). -/
theorem exists_target_of_aligned {off : BitVec 9} (h : off.toNat % 4 = 0) : ∃ t : Target, t.offset = off := by
  have hall : ∀ n : Fin 128,
      (targetOf (BitVec.ofNat 9 (4 * n.val))).map Target.offset = some (BitVec.ofNat 9 (4 * n.val)) := by decide
  have hn : BitVec.ofNat 9 (4 * (off.toNat / 4)) = off := by
    apply BitVec.eq_of_toNat_eq
    simp only [BitVec.toNat_ofNat]
    omega
  have hoff := hall ⟨off.toNat / 4, by omega⟩
  rw [hn] at hoff
  obtain ⟨t, -, ht⟩ := Option.map_eq_some_iff.mp hoff
  exact ⟨t, ht⟩

/-! ### Transaction words (30_encoding R81, R82) -/

/-- The transaction a word with this WE and DATA makes of a target. -/
def hostInstr (we : Bool) (t : Target) (d : Word) : Instr :=
  if we then writeInstr t d else readInstr t

theorem extractLsb'_data_transactionWord (we : Bool) (off : BitVec 9) (d : Word) :
    (transactionWord we off d).extractLsb' 0 32 = d :=
  BitVec.extractLsb'_append_eq_right

theorem exists_ofBool_eq (b : BitVec 1) : ∃ x, BitVec.ofBool x = b := by
  revert b; decide

/-- Every word of 42 bits is a transaction word. -/
theorem exists_transactionWord_eq (ht : BitVec 42) : ∃ we off d, transactionWord we off d = ht := by
  have hfields : ht.extractLsb' 41 1 ++ ht.extractLsb' 32 9 ++ ht.extractLsb' 0 32 = ht := by
    rw [BitVec.extractLsb'_append_extractLsb'_eq_extractLsb' (by rfl)]
    exact BitVec.extractLsb'_append_extractLsb' (w := 10) (len := 32)
  obtain ⟨we, hwe⟩ := exists_ofBool_eq (ht.extractLsb' 41 1)
  exact ⟨we, ht.extractLsb' 32 9, ht.extractLsb' 0 32, by rw [transactionWord, hwe, hfields]⟩

theorem decodeHost_offset (we : Bool) (t : Target) (d : Word) :
    decodeHost (transactionWord we t.offset d) = .ok (hostInstr we t d) := by
  have hlow : ¬ t.offset.extractLsb' 0 2 ≠ 0 :=
    not_not_intro ((extractLsb'_low_eq_zero_iff t.offset).mpr t.offset_aligned)
  have hwe : (transactionWord we t.offset d).getLsbD 41 = we := by rw [getLsbD_transactionWord]; rfl
  simp only [decodeHost, extractLsb'_offset_transactionWord, extractLsb'_data_transactionWord, hwe, if_neg hlow,
    targetOf_offset, hostInstr]

theorem decodeHost_misaligned (we : Bool) {off : BitVec 9} (d : Word) (h : off.toNat % 4 ≠ 0) :
    decodeHost (transactionWord we off d) = .reject .misaligned := by
  have hlow : off.extractLsb' 0 2 ≠ 0 := fun h0 => h ((extractLsb'_low_eq_zero_iff off).mp h0)
  simp only [decodeHost, extractLsb'_offset_transactionWord, if_pos hlow]

/-- A transaction word that decodes has the offset of a target, and decodes to the transaction of that target. -/
theorem decodeHost_eq_ok {we : Bool} {off : BitVec 9} {d : Word} {i : Instr}
    (h : decodeHost (transactionWord we off d) = .ok i) : ∃ t : Target, off = t.offset ∧ i = hostInstr we t d := by
  have haligned := aligned_of_decodeHost h
  rw [extractLsb'_offset_transactionWord] at haligned
  obtain ⟨t, rfl⟩ := exists_target_of_aligned haligned
  rw [decodeHost_offset] at h
  exact ⟨t, rfl, by simpa using h.symm⟩

/-! ### The checks of an access (30_encoding R82) -/

theorem Access.exists_word_eq (a : Access) : ∃ we d, a.word = transactionWord we a.off d := by
  unfold Access.word
  split
  · exact ⟨_, _, rfl⟩
  · exact ⟨_, _, rfl⟩

/-- An access that passes step 1 is decoded by its transaction word. -/
theorem decodeAccess_of_checked {a : Access} (hsize : a.sizeBits = 32) (hbe : ∀ be v, a.op = .write be v → be = 0xF) :
    decodeAccess a = decodeHost a.word := by
  unfold decodeAccess
  rw [if_neg (not_not_intro hsize)]
  split
  · rfl
  · next be v hop => exact if_neg (not_not_intro (hbe be v hop))

/-- Settles O4: the first two checks are `decodeAccess`'s own, and the transaction word decodes when its offset is
aligned. -/
theorem accessChecksComeInOrder : Obligations.AccessChecksComeInOrder := by
  intro a
  obtain ⟨we, d, hword⟩ := a.exists_word_eq
  refine ⟨fun hsize => if_pos hsize, fun be v hsize hop hbe => ?_, fun hsize hbe hoff => ?_, fun hsize hbe hoff => ?_⟩
  · simp only [decodeAccess, hsize, hop, ne_eq, not_true_eq_false, if_false, if_pos hbe]
  · rw [decodeAccess_of_checked hsize hbe, hword, decodeHost_misaligned we d hoff]
  · obtain ⟨t, ht⟩ := exists_target_of_aligned hoff
    exact ⟨_, by rw [decodeAccess_of_checked hsize hbe, hword, ← ht, decodeHost_offset]⟩

/-! ### The encoder on host transactions -/

/-- A CTRL write is told apart by DATA[0] (30_encoding R85). -/
theorem writeInstr_ctrl (x : BitVec 31) (b : Bool) :
    writeInstr .ctrl (x ++ BitVec.ofBool b) = if b then .wrCtrlStart x else .wrCtrlNop x := by
  have hbit : (x ++ BitVec.ofBool b : BitVec (31 + 1)).getLsbD 0 = b := by
    rw [BitVec.getLsbD_append]
    exact BitVec.getLsbD_ofBool b 0
  have hrest : (x ++ BitVec.ofBool b : BitVec (31 + 1)).extractLsb' 1 31 = x := BitVec.extractLsb'_append_eq_left
  simp only [writeInstr, hbit, hrest]

theorem encode_writeInstr (t : Target) (d : Word) : encode (writeInstr t d) = encodeWrite t d := by
  cases t
  case ctrl =>
    have hsplit : d.extractLsb' 1 31 ++ d.extractLsb' 0 1 = d :=
      BitVec.extractLsb'_append_extractLsb' (w := 31) (len := 1)
    obtain ⟨b, hb⟩ := exists_ofBool_eq (d.extractLsb' 0 1)
    rw [← hsplit, ← hb, writeInstr_ctrl]
    cases b <;> rfl
  all_goals rfl

theorem encode_readInstr (t : Target) : encode (readInstr t) = encodeRead t := by
  cases t <;> rfl

/-- The word of a transaction; DATA of a read is 0 (30_encoding R81). -/
theorem encode_hostInstr (we : Bool) (t : Target) (d : Word) :
    encode (hostInstr we t d) = .host (transactionWord we t.offset (if we then d else 0)) := by
  cases we
  · exact encode_readInstr t
  · exact encode_writeInstr t d

/-- Every instruction but a uop is the transaction of a target. -/
theorem exists_hostInstr_eq {i : Instr} (h : isUop i = false) : ∃ we t d, hostInstr we t d = i := by
  cases i
  case wrCtrlStart x => exact ⟨true, .ctrl, x ++ BitVec.ofBool true, writeInstr_ctrl x true⟩
  case wrCtrlNop x => exact ⟨true, .ctrl, x ++ BitVec.ofBool false, writeInstr_ctrl x false⟩
  case wrStatus d => exact ⟨true, .status, d, rfl⟩
  case wrScalar w d => exact ⟨true, .scalar w, d, rfl⟩
  case wrBase c w d => exact ⟨true, .base c w, d, rfl⟩
  case wrRes c w d => exact ⟨true, .res c w, d, rfl⟩
  case wrRsvd008 w d => exact ⟨true, .rsvd008 w, d, rfl⟩
  case wrRsvd010 w d => exact ⟨true, .rsvd010 w, d, rfl⟩
  case wrRsvd020 w d => exact ⟨true, .rsvd020 w, d, rfl⟩
  case wrRsvd060 w d => exact ⟨true, .rsvd060 w, d, rfl⟩
  case wrRsvd180 w d => exact ⟨true, .rsvd180 w, d, rfl⟩
  case rdCtrl => exact ⟨false, .ctrl, 0, rfl⟩
  case rdStatus => exact ⟨false, .status, 0, rfl⟩
  case rdScalar w => exact ⟨false, .scalar w, 0, rfl⟩
  case rdBase c w => exact ⟨false, .base c w, 0, rfl⟩
  case rdRes c w => exact ⟨false, .res c w, 0, rfl⟩
  case rdRsvd008 w => exact ⟨false, .rsvd008 w, 0, rfl⟩
  case rdRsvd010 w => exact ⟨false, .rsvd010 w, 0, rfl⟩
  case rdRsvd020 w => exact ⟨false, .rsvd020 w, 0, rfl⟩
  case rdRsvd060 w => exact ⟨false, .rsvd060 w, 0, rfl⟩
  case rdRsvd180 w => exact ⟨false, .rsvd180 w, 0, rfl⟩
  case enc | tcache | tadd | c2e | te2c | sel | addi | c2p | dbl | add | fin => cases h

/-! ### Uop words (30_encoding R86 to R88) -/

theorem uopWord_fields (w : BitVec 12) : uopWord (w.extractLsb' 10 2) (w.extractLsb' 4 6) (w.extractLsb' 0 4) = w := by
  rw [uopWord, BitVec.extractLsb'_append_extractLsb'_eq_extractLsb' (by rfl)]
  exact BitVec.extractLsb'_append_extractLsb' (w := 8) (len := 4)

theorem decode_encode_uop {i : Instr} (h : isUop i = true) : decode (encode i) = .ok i := by
  cases i
  case enc | tcache | c2e | addi | fin => rfl
  case tadd k => exact decodeUop_tadd k
  case te2c k => exact decodeUop_te2c k
  case sel d => exact decodeUop_sel d
  case c2p j => exact decodeUop_c2p j
  case dbl j => exact decodeUop_dbl j
  case add d => exact decodeUop_add d
  all_goals cases h

/-- Settles O1: a transaction's word has the offset of its target, and a uop's word is split into its fields again. -/
theorem decodeOfEncodeIsTheInstruction : Obligations.DecodeOfEncodeIsTheInstruction := by
  intro i
  cases hu : isUop i
  · obtain ⟨we, t, d, rfl⟩ := exists_hostInstr_eq hu
    rw [encode_hostInstr, decode, decodeHost_offset]
    cases we <;> rfl
  · exact decode_encode_uop hu

/-- What a check of the decoder lets through. -/
theorem ok_of_ite_eq_ok {p : Prop} [Decidable p] {i j : Instr} {why : Reject}
    (h : (if p then Decoded.ok i else .reject why) = .ok j) : p ∧ i = j := by
  split at h
  · next hp => exact ⟨hp, by simpa using h⟩
  · cases h

/-- A uop word that decodes is the word of its uop: the fields that it must have 0 are 0. -/
theorem encode_of_decodeUop {w : BitVec 12} {i : Instr} (h : decodeUop w = .ok i) : encode i = .uop w := by
  have hw := uopWord_fields w
  have hcode : BitVec.ofNat 4 (w.extractLsb' 0 4).toNat = w.extractLsb' 0 4 := by
    rw [BitVec.ofNat_toNat, BitVec.setWidth_eq]
  unfold decodeUop at h
  dsimp only at h
  generalize w.extractLsb' 10 2 = j, w.extractLsb' 4 6 = idx, w.extractLsb' 0 4 = op at h hw hcode
  subst hw
  split at h
  case h_12 => cases h
  all_goals
    next hop =>
    rw [hop] at hcode
    subst hcode
    obtain ⟨hzero, rfl⟩ := ok_of_ite_eq_ok h
    simp [encode, hzero]

/-- Settles O2: by format; a transaction word that decodes has the offset of the target it decodes to. -/
theorem encodeOfDecodeIsTheWord : Obligations.EncodeOfDecodeIsTheWord := by
  refine ⟨fun w i h => encode_of_decodeUop h, fun off v i h => ?_, fun off v i h => ?_⟩
  all_goals
    obtain ⟨t, rfl, rfl⟩ := decodeHost_eq_ok h
    exact encode_hostInstr _ t v

/-- Settles O5: each word is evaluated. -/
theorem wordsOfTheSpecDecode : Obligations.WordsOfTheSpecDecode := by
  unfold Obligations.WordsOfTheSpecDecode
  decide

end Sys2Proof
end

section
/-! The rows of the opcode table (30_encoding R83, R87): a word that decodes matches its instruction's row and no other. -/

namespace Sys2Proof

open Machine

/-! ### No word matches two rows -/

/-- One instruction of each row of the opcode table. -/
def instrPerRow : List Instr :=
  [.wrCtrlStart 0, .wrCtrlNop 0, .wrStatus 0, .wrScalar 0 0, .wrBase .X 0 0, .wrRes .X 0 0,
   .wrRsvd008 0 0, .wrRsvd010 0 0, .wrRsvd020 0 0, .wrRsvd060 0 0, .wrRsvd180 0 0,
   .rdCtrl, .rdStatus, .rdScalar 0, .rdBase .X 0, .rdRes .X 0,
   .rdRsvd008 0, .rdRsvd010 0, .rdRsvd020 0, .rdRsvd060 0, .rdRsvd180 0,
   .enc, .tcache, .tadd 0, .c2e, .te2c 0, .sel 0, .addi, .c2p 0, .dbl 0, .add 0, .fin]

/-- The rows of the opcode table. -/
def tableRows : List TableRow := instrPerRow.map Instr.row

theorem Instr.row_mem_tableRows (i : Instr) : i.row ∈ tableRows := by
  cases i <;> simp [tableRows, instrPerRow, Instr.row]

/-- Two rows of one format agree on the bits that both masks look at. -/
def TableRow.overlaps (r r' : TableRow) : Bool :=
  match r.format, r'.format with
  | .host, .host =>
    BitVec.ofNat 42 r.mtch &&& BitVec.ofNat 42 r'.mask == BitVec.ofNat 42 r'.mtch &&& BitVec.ofNat 42 r.mask
  | .uop, .uop =>
    BitVec.ofNat 12 r.mtch &&& BitVec.ofNat 12 r'.mask == BitVec.ofNat 12 r'.mtch &&& BitVec.ofNat 12 r.mask
  | _, _ => false

theorem TableRow.matchesWord_host {r : TableRow} {ht : BitVec 42} :
    r.matchesWord (.host ht) = true ↔ r.format = .host ∧ ht &&& BitVec.ofNat 42 r.mask = BitVec.ofNat 42 r.mtch := by
  simp only [matchesWord, Bool.and_eq_true, beq_iff_eq]

theorem TableRow.matchesWord_uop {r : TableRow} {w : BitVec 12} :
    r.matchesWord (.uop w) = true ↔ r.format = .uop ∧ w &&& BitVec.ofNat 12 r.mask = BitVec.ofNat 12 r.mtch := by
  simp only [matchesWord, Bool.and_eq_true, beq_iff_eq]

/-- What one word shows under two masks agrees where both look. -/
theorem and_mask_comm {n : Nat} {w m m' a a' : BitVec n} (h : w &&& m = a) (h' : w &&& m' = a') :
    a &&& m' = a' &&& m := by
  rw [← h, ← h', BitVec.and_assoc, BitVec.and_assoc, BitVec.and_comm m m']

theorem TableRow.overlaps_of_matchesWord {r r' : TableRow} {e : Encoded} (h : r.matchesWord e = true)
    (h' : r'.matchesWord e = true) : r.overlaps r' = true := by
  cases e with
  | host ht =>
    obtain ⟨hf, hm⟩ := matchesWord_host.mp h
    obtain ⟨hf', hm'⟩ := matchesWord_host.mp h'
    simp only [overlaps, hf, hf', beq_iff_eq]
    exact and_mask_comm hm hm'
  | uop w =>
    obtain ⟨hf, hm⟩ := matchesWord_uop.mp h
    obtain ⟨hf', hm'⟩ := matchesWord_uop.mp h'
    simp only [overlaps, hf, hf', beq_iff_eq]
    exact and_mask_comm hm hm'

/-- No two rows of the opcode table overlap. -/
theorem eq_of_overlaps : ∀ r ∈ tableRows, ∀ r' ∈ tableRows, r.overlaps r' = true → r = r' := by decide

/-! ### The word matches its row -/

/-- The encoder's word lies in its instruction's row. -/
theorem row_matchesWord_encode (i : Instr) : i.row.matchesWord (encode i) = true := by
  cases i
  case wrCtrlStart x => exact Laws.RowMatch.wrCtrlStart x
  case wrCtrlNop x => exact Laws.RowMatch.wrCtrlNop x
  case wrStatus d => exact Laws.RowMatch.wrStatus d
  case wrScalar w d => exact Laws.RowMatch.wrScalar w d
  case wrBase c w d => exact Laws.RowMatch.wrBase c w d
  case wrRes c w d => exact Laws.RowMatch.wrRes c w d
  case wrRsvd008 w d => exact Laws.RowMatch.wrRsvd008 w d
  case wrRsvd010 w d => exact Laws.RowMatch.wrRsvd010 w d
  case wrRsvd020 w d => exact Laws.RowMatch.wrRsvd020 w d
  case wrRsvd060 w d => exact Laws.RowMatch.wrRsvd060 w d
  case wrRsvd180 w d => exact Laws.RowMatch.wrRsvd180 w d
  case rdCtrl => exact Laws.RowMatch.rdCtrl
  case rdStatus => exact Laws.RowMatch.rdStatus
  case rdScalar w => exact Laws.RowMatch.rdScalar w
  case rdBase c w => exact Laws.RowMatch.rdBase c w
  case rdRes c w => exact Laws.RowMatch.rdRes c w
  case rdRsvd008 w => exact Laws.RowMatch.rdRsvd008 w
  case rdRsvd010 w => exact Laws.RowMatch.rdRsvd010 w
  case rdRsvd020 w => exact Laws.RowMatch.rdRsvd020 w
  case rdRsvd060 w => exact Laws.RowMatch.rdRsvd060 w
  case rdRsvd180 w => exact Laws.RowMatch.rdRsvd180 w
  case enc => exact Laws.RowMatch.enc
  case tcache => exact Laws.RowMatch.tcache
  case tadd k => exact Laws.RowMatch.tadd k
  case c2e => exact Laws.RowMatch.c2e
  case te2c k => exact Laws.RowMatch.te2c k
  case sel d => exact Laws.RowMatch.sel d
  case addi => exact Laws.RowMatch.addi
  case c2p j => exact Laws.RowMatch.c2p j
  case dbl j => exact Laws.RowMatch.dbl j
  case add d => exact Laws.RowMatch.add d
  case fin => exact Laws.RowMatch.fin

/-- The mask of a read's row does not look at DATA (30_encoding R83). -/
theorem readInstr_row_mask_data (t : Target) : (BitVec.ofNat 42 (readInstr t).row.mask).extractLsb' 0 32 = 0#32 := by
  cases t <;> (simp only [readInstr, Instr.row]; rfl)

/-- Whatever DATA a read word holds, it lies in the row of the read. -/
theorem readInstr_row_matchesWord (t : Target) (d : Word) :
    (readInstr t).row.matchesWord (.host (transactionWord false t.offset d)) = true := by
  have h := row_matchesWord_encode (readInstr t)
  rw [encode_readInstr, encodeRead, TableRow.matchesWord_host] at h
  obtain ⟨hformat, hmatch⟩ := h
  have hmask := BitVec.extractLsb'_append_extractLsb' (w := 10) (len := 32)
    (x := BitVec.ofNat 42 (readInstr t).row.mask)
  rw [readInstr_row_mask_data] at hmask
  refine TableRow.matchesWord_host.mpr ⟨hformat, ?_⟩
  rw [← hmatch, ← hmask, transactionWord, transactionWord, BitVec.and_append, BitVec.and_append, BitVec.and_zero,
    BitVec.and_zero]

theorem row_matchesWord_of_decode {e : Encoded} {i : Instr} (h : decode e = .ok i) : i.row.matchesWord e = true := by
  cases e with
  | uop w => exact encode_of_decodeUop h ▸ row_matchesWord_encode i
  | host ht =>
    obtain ⟨we, off, d, rfl⟩ := exists_transactionWord_eq ht
    obtain ⟨t, rfl, rfl⟩ := decodeHost_eq_ok h
    cases we
    · exact readInstr_row_matchesWord t d
    · exact encode_hostInstr true t d ▸ row_matchesWord_encode (hostInstr true t d)

/-- Settles O3: the word matches its own row, and no two rows overlap. -/
theorem decodedWordMatchesExactlyItsRow : Obligations.DecodedWordMatchesExactlyItsRow := by
  intro e i h
  have hrow := row_matchesWord_of_decode h
  exact ⟨hrow, fun j hj =>
    eq_of_overlaps _ j.row_mem_tableRows _ i.row_mem_tableRows (TableRow.overlaps_of_matchesWord hj hrow)⟩

end Sys2Proof
end

section
/-! The host's driver (30_encoding R90, R91): what its accesses decode to, and what its sequences leave. -/

namespace Sys2Proof.Machine

/-! ### Accesses of the driver -/

/-- With a legal ERRCODE the step of `WR` at a target is the write of that target. -/
theorem step_wr {s : State} {t : Target} {d : Word} {rest : List Turn} (ht : s.turns = wr t.offset d :: rest)
    (he : s.status.errcode.toNat ≤ 1) : step s = exec (writeInstr t d) { s with turns := rest } :=
  stepRunsTheDecodedAccess s _ rest _ ht he (decodeHost_offset true t d)

/-- With a legal ERRCODE the step of `RD` at a target is the read of that target. -/
theorem step_rd {s : State} {t : Target} {rest : List Turn} (ht : s.turns = rd t.offset :: rest)
    (he : s.status.errcode.toNat ≤ 1) : step s = exec (readInstr t) { s with turns := rest } :=
  stepRunsTheDecodedAccess s _ rest _ ht he (decodeHost_offset false t 0)

/-! ### Runs along a list of turns -/

theorem runSteps_add {m n : Nat} {s t : State} (h : runSteps m s = .next t) : runSteps (m + n) s = runSteps n t := by
  induction m generalizing s with
  | zero => cases h; rw [Nat.zero_add]
  | succ m ih =>
    rw [Nat.succ_add]
    cases hstep : step s with
    | next u =>
      simp only [runSteps, hstep] at h ⊢
      exact ih h
    | fault => simp [runSteps, hstep] at h
    | refused => simp [runSteps, hstep] at h

/-- A run along a list of turns that each take the family `st` of states to itself. -/
theorem runSteps_map {α β : Type} {turn : α → Turn} {st : β → List Turn → State} {f : β → α → β}
    (h : ∀ b x rest, step (st b (turn x :: rest)) = .next (st (f b x) rest)) (xs : List α) (b : β) (rest : List Turn) :
    runSteps xs.length (st b (xs.map turn ++ rest)) = .next (st (xs.foldl f b) rest) := by
  induction xs generalizing b with
  | nil => rfl
  | cons x xs ih => simp only [List.length_cons, List.map_cons, List.cons_append, runSteps, h, ih, List.foldl_cons]

/-! ### Loading the eight words of a 256-bit register -/

/-- A bit of a register to which some words of a value have been copied. -/
theorem getLsbD_foldl_setWord (v : BitVec 256) (ws : List (BitVec 3)) (u : BitVec 256) {i : Nat} (hi : i < 256) :
    (ws.foldl (fun x w => setWord x w (getWord v w)) u).getLsbD i =
      if BitVec.ofNat 3 (i / 32) ∈ ws then v.getLsbD i else u.getLsbD i := by
  induction ws generalizing u with
  | nil => simp
  | cons w ws ih =>
    have hword : BitVec.ofNat 3 (i / 32) = w ↔ 32 * w.toNat ≤ i ∧ i < 32 * w.toNat + 32 := by
      rw [← BitVec.toNat_inj, BitVec.toNat_ofNat]
      omega
    rw [List.foldl_cons, ih, getLsbD_setWord]
    by_cases hin : 32 * w.toNat ≤ i ∧ i < 32 * w.toNat + 32
    · have hbit : 32 * w.toNat + (i - 32 * w.toNat) = i := by omega
      have hlt : i - 32 * w.toNat < 32 := by omega
      simp [hword, getWord, hin, hbit, hlt]
    · simp [hword, hin]

/-- Copying all eight words leaves the value, whatever the register held. -/
theorem foldl_setWord_wordNumbers (v u : BitVec 256) :
    wordNumbers.foldl (fun x w => setWord x w (getWord v w)) u = v := by
  apply BitVec.eq_of_getLsbD_eq
  intro i hi
  have hall : ∀ w : BitVec 3, w ∈ wordNumbers := by decide
  rw [getLsbD_foldl_setWord v wordNumbers u hi, if_pos (hall _)]

/-- The register and the host's answer after the write of word `w` of `v`. -/
def copyWord (v : BitVec 256) (x : BitVec 256 × Option Response) (w : BitVec 3) : BitVec 256 × Option Response :=
  (setWord x.1 w (getWord v w), some .writeDone)

theorem foldl_copyWord_wordNumbers (v : BitVec 256) (x : BitVec 256 × Option Response) :
    wordNumbers.foldl (copyWord v) x = (v, some .writeDone) := by
  calc wordNumbers.foldl (copyWord v) x
    _ = (wordNumbers.foldl (fun u w => setWord u w (getWord v w)) x.1, some .writeDone) := rfl
    _ = (v, some .writeDone) := by rw [foldl_setWord_wordNumbers]

/-- Eight turns that each copy a word of `v` into the register that `st` replaces leave `v` there. -/
theorem runSteps_copyWord {turn : BitVec 3 → Turn} {st : BitVec 256 × Option Response → List Turn → State}
    {v : BitVec 256} (h : ∀ x w rest, step (st x (turn w :: rest)) = .next (st (copyWord v x w) rest))
    (x : BitVec 256 × Option Response) (rest : List Turn) :
    runSteps 8 (st x (wordNumbers.map turn ++ rest)) = .next (st (v, some .writeDone) rest) := by
  have hrun := runSteps_map h wordNumbers x rest
  rwa [foldl_copyWord_wordNumbers] at hrun

/-! ### LDSCALAR -/

/-- `s` with SCALAR and the answer replaced, and these turns to come. -/
def State.withScalar (s : State) (x : BitVec 256 × Option Response) (turns : List Turn) : State :=
  { s with scalar := x.1, response := x.2, turns := turns }

/-- Settles O51: each of the eight writes copies its word of the value into SCALAR. -/
theorem loadScalarSequenceLoadsTheScalar : Obligations.LoadScalarSequenceLoadsTheScalar := by
  intro s v rest he ht
  have hinit : s = s.withScalar (s.scalar, s.response) (ldScalar v ++ rest) := by rw [← ht, State.withScalar]
  calc runSteps 8 s
    _ = runSteps 8 (s.withScalar (s.scalar, s.response) (ldScalar v ++ rest)) := congrArg _ hinit
    _ = .next (s.withScalar (v, some .writeDone) rest) :=
      runSteps_copyWord (fun x w ts => step_wr (s := s.withScalar x (_ :: ts)) rfl he) _ rest

/-! ### LDBASE -/

/-- `s` with a coordinate of BASE and the answer replaced, and these turns to come. -/
def State.withBaseCoord (s : State) (c : Coord) (x : BitVec 256 × Option Response) (turns : List Turn) : State :=
  { s with base := setCoord s.base c x.1, response := x.2, turns := turns }

theorem setCoord_getCoord (p : ExtPoint) (c : Coord) : setCoord p c (getCoord p c) = p := by
  cases c <;> rfl

theorem setCoord_setCoord (p : ExtPoint) (c : Coord) (x y : Fe) : setCoord (setCoord p c x) c y = setCoord p c y := by
  cases c <;> rfl

theorem exec_wrBase_withBaseCoord (s : State) (c : Coord) (w : BitVec 3) (v : BitVec 256)
    (x : BitVec 256 × Option Response) (rest : List Turn) :
    exec (.wrBase c w (getWord v w)) (s.withBaseCoord c x rest) = .next (s.withBaseCoord c (copyWord v x w) rest) := by
  simp only [exec, execWrBase, answerWrite, respond, State.withBaseCoord, setPointWord, getCoord_setCoord_same,
    setCoord_setCoord, copyWord]

/-- The eight writes of one coordinate leave that of the point. -/
theorem runSteps_ldCoord {s : State} {p : ExtPoint} {c : Coord} {rest : List Turn} (he : s.status.errcode.toNat ≤ 1)
    (ht : s.turns = ldCoord p c ++ rest) :
    runSteps 8 s = .next (s.withBaseCoord c (getCoord p c, some .writeDone) rest) := by
  have hinit : s = s.withBaseCoord c (getCoord s.base c, s.response) (ldCoord p c ++ rest) := by
    rw [← ht, State.withBaseCoord, setCoord_getCoord]
  have hstep (x : BitVec 256 × Option Response) (w : BitVec 3) (ts : List Turn) :
      step (s.withBaseCoord c x (wr (Target.base c w).offset (getPointWord p c w) :: ts)) =
        .next (s.withBaseCoord c (copyWord (getCoord p c) x w) ts) :=
    (step_wr (s := s.withBaseCoord c x (_ :: ts)) rfl he).trans (exec_wrBase_withBaseCoord s c w (getCoord p c) x ts)
  calc runSteps 8 s
    _ = runSteps 8 (s.withBaseCoord c (getCoord s.base c, s.response) (ldCoord p c ++ rest)) := congrArg _ hinit
    _ = .next (s.withBaseCoord c (getCoord p c, some .writeDone) rest) := runSteps_copyWord hstep _ rest

/-- Settles O52: coordinate by coordinate, X first. -/
theorem loadBaseSequenceLoadsTheBase : Obligations.LoadBaseSequenceLoadsTheBase := by
  intro s p rest he ht
  simp only [ldBase, List.append_assoc] at ht
  calc runSteps (8 + (8 + (8 + 8))) s
    _ = runSteps (8 + (8 + 8)) _ := runSteps_add (runSteps_ldCoord he ht)
    _ = runSteps (8 + 8) _ := runSteps_add (runSteps_ldCoord he rfl)
    _ = runSteps 8 _ := runSteps_add (runSteps_ldCoord he rfl)
    _ = .next _ := runSteps_ldCoord he rfl

/-! ### RDRES -/

/-- The coordinate and the word number of each read of RDRES (30_encoding R91). -/
def resultWords : List (Coord × BitVec 3) :=
  [Coord.X, Coord.Y, Coord.Z, Coord.T].flatMap fun c => wordNumbers.map fun w => (c, w)

theorem rdRes_eq_map : rdRes = resultWords.map fun x => rd (Target.res x.1 x.2).offset := rfl

/-- Read `n` is of word `n mod 8` of coordinate `n / 8`. -/
theorem getElem?_resultWords {n : Nat} (hn : n < 32) :
    ∃ c w, resultWords[n]? = some (c, w) ∧ c.bits.toNat = n / 8 ∧ w.toNat = n % 8 := by
  have hall : ∀ n : Fin 32, ∃ x ∈ resultWords[n.val]?, x.1.bits.toNat = n.val / 8 ∧ x.2.toNat = n.val % 8 := by decide
  obtain ⟨⟨c, w⟩, hx, hc, hw⟩ := hall ⟨n, hn⟩
  exact ⟨c, w, hx, hc, hw⟩

theorem getCoord_eq_coordNumbered (p : ExtPoint) (c : Coord) : getCoord p c = coordNumbered p c.bits.toNat := by
  cases c <;> rfl

theorem getWord_eq_ofNat (v : BitVec 256) (w : BitVec 3) :
    getWord v w = BitVec.ofNat 32 (v.toNat / 2 ^ (32 * w.toNat)) := by
  rw [getWord, BitVec.extractLsb', Nat.shiftRight_eq_div_pow]

/-- `s` with the answer replaced, and these turns to come. -/
def State.answered (s : State) (r : Option Response) (turns : List Turn) : State :=
  { s with response := r, turns := turns }

/-- Settles O53: a read answers its word, and changes nothing that a later one reads. -/
theorem readResultSequenceReadsTheResult : Obligations.ReadResultSequenceReadsTheResult := by
  intro s rest he ht n hn
  obtain ⟨c, w, hx, hc, hw⟩ := getElem?_resultWords hn
  have hstep (r : Option Response) (x : Coord × BitVec 3) (ts : List Turn) :
      step (s.answered r (rd (Target.res x.1 x.2).offset :: ts)) =
        .next (s.answered (some (.readData (getPointWord s.result x.1 x.2))) ts) :=
    step_rd (s := s.answered r (_ :: ts)) rfl he
  have htake : resultWords.take (n + 1) = resultWords.take n ++ [(c, w)] := by rw [List.take_add_one, hx]; rfl
  have hlen : (resultWords.take (n + 1)).length = n + 1 := List.length_take_of_le hn
  have hrun := runSteps_map hstep (resultWords.take (n + 1)) s.response
    ((resultWords.drop (n + 1)).map (fun x => rd (Target.res x.1 x.2).offset) ++ rest)
  rw [← List.append_assoc, ← List.map_append, List.take_append_drop, ← rdRes_eq_map, ← ht, hlen, htake,
    List.foldl_append] at hrun
  refine ⟨_, hrun, ?_⟩
  rw [← hc, ← hw, ← getCoord_eq_coordNumbered, ← getWord_eq_ofNat]
  rfl

end Sys2Proof.Machine
end

section
/-! The operand ranges of the uops (30_encoding R86). -/

namespace Sys2Proof.Machine

theorem tadd_wf_eq_false {k : BitVec 6} (h : k = 0 ∨ 8 ≤ k.toNat) : (Instr.tadd k).wf = false := by
  revert k; decide

theorem te2c_wf_eq_false {k : BitVec 6} (h : k = 0 ∨ 8 ≤ k.toNat) : (Instr.te2c k).wf = false :=
  tadd_wf_eq_false h

/-- A uop that is not well-formed is a fault that names its word (log 11). -/
theorem exec_of_wf_eq_false {i : Instr} {w : BitVec 12} (hw : i.wf = false) (he : encode i = .uop w) (s : State) :
    exec i s = .fault (.reservedUop w) := by
  have hnot : ¬ i.wf = true := by simp [hw]
  cases i
  case tadd | te2c | add => cases he; exact if_neg hnot
  all_goals cases hw

/-- Settles O29: such operands are not well-formed. -/
theorem outOfRangeUopIsAFault : Obligations.OutOfRangeUopIsAFault := by
  intro s
  exact ⟨fun k hk => exec_of_wf_eq_false (tadd_wf_eq_false hk) rfl s,
    fun k hk => exec_of_wf_eq_false (te2c_wf_eq_false hk) rfl s, exec_of_wf_eq_false (i := .add 63) rfl rfl s⟩

end Sys2Proof.Machine
end

section
/-! The digits of ENC: the carry pass is the addition of `8` at every digit (41_digit_encoder R102 to R107). -/

namespace Sys2Proof.Machine

/-- The nibbles are the base-16 digits of the scalar (41_digit_encoder R102). -/
theorem nibble_eq_digit (a : BitVec 256) (i : Nat) : nibble a i = ((a.toNat / 16 ^ i % 16 : Nat) : Int) := by
  obtain ⟨k, rfl | rfl⟩ := i.even_or_odd'
  · have hpow : 16 ^ (2 * k) = 2 ^ (8 * k) := by rw [show 16 = 2 ^ 4 from rfl, ← pow_mul]; congr 1; omega
    have hk : 2 * k / 2 = k := by omega
    simp [nibble, scalarByte, hk, hpow, Nat.shiftRight_eq_div_pow]
  · have hpow : 16 ^ (2 * k + 1) = 2 ^ (8 * k) * 16 := by
      rw [pow_succ, show 16 = 2 ^ 4 from rfl, ← pow_mul]; congr 2; omega
    have hk : (2 * k + 1) / 2 = k := by omega
    have hodd : (2 * k + 1) % 2 = 1 := by omega
    simp only [nibble, scalarByte, hk, hodd, one_ne_zero, if_false, BitVec.extractLsb'_toNat,
      Nat.shiftRight_eq_div_pow, hpow, ← Nat.div_div_eq_div_mul]
    omega

/-! ### The carries -/

/-- The carry pass in division form (41_digit_encoder R103). -/
theorem carryInto_succ (a : BitVec 256) (i : Nat) :
    carryInto a (i + 1) = (((a.toNat / 16 ^ i % 16 : Nat) : Int) + carryInto a i + 8) / 16 := by
  rw [← nibble_eq_digit]
  exact (Int.shiftRight_natCast_right _ 4).trans (Int.shiftRight_eq_div_pow _ 4)

/-- The number whose `n` base-16 digits are all 8; for `n = 63` it is `K` (41_digit_encoder R106). -/
def eights (n : Nat) : Nat := ∑ j ∈ Finset.range n, 8 * 16 ^ j

theorem eights_succ (n : Nat) : eights (n + 1) = eights n + 8 * 16 ^ n :=
  Finset.sum_range_succ ..

theorem eights_mul_fifteen (n : Nat) : 15 * eights n + 8 = 8 * 16 ^ n := by
  induction n with
  | zero => rfl
  | succ n ih => rw [eights_succ, pow_succ]; omega

/-- Adding 8 at digit `n` is seen from digit `n` on as the addition of 8. -/
theorem add_eights_succ_div (a n : Nat) : (a + eights (n + 1)) / 16 ^ n = (a + eights n) / 16 ^ n + 8 := by
  rw [eights_succ, ← Nat.add_assoc, Nat.add_mul_div_right _ _ (by positivity)]

/-- The carry into digit `n` is the carry of the addition of the eights below it (41_digit_encoder R106). -/
theorem digits_add_carryInto (a : BitVec 256) (n : Nat) :
    ((a.toNat / 16 ^ n : Nat) : Int) + carryInto a n = ((a.toNat + eights n) / 16 ^ n : Nat) := by
  induction n with
  | zero => simp [carryInto, eights]
  | succ n ih =>
    have hsum := add_eights_succ_div a.toNat n
    rw [carryInto_succ, pow_succ, ← Nat.div_div_eq_div_mul,
      ← Nat.div_div_eq_div_mul]
    omega

/-- The carry is 1 from the threshold of 41_digit_encoder R106 on. -/
theorem carryInto_eq_ite (a : BitVec 256) (n : Nat) :
    carryInto a n = if a.toNat % 16 ^ n ≥ 7 * (16 ^ n - 1) / 15 + 1 then 1 else 0 := by
  have hcarry := digits_add_carryInto a n
  have heights := eights_mul_fifteen n
  have hmod : a.toNat % 16 ^ n < 16 ^ n := Nat.mod_lt _ (by positivity)
  have hsplit : (a.toNat + eights n) / 16 ^ n = a.toNat / 16 ^ n + (a.toNat % 16 ^ n + eights n) / 16 ^ n := by
    conv_lhs => rw [← Nat.div_add_mod a.toNat (16 ^ n), Nat.add_assoc, Nat.mul_add_div (by positivity)]
  split
  · have hone : (a.toNat % 16 ^ n + eights n) / 16 ^ n = 1 := Nat.div_eq_of_lt_le (by omega) (by omega)
    omega
  · have hzero : (a.toNat % 16 ^ n + eights n) / 16 ^ n = 0 := Nat.div_eq_of_lt (by omega)
    omega

/-! ### The digits in closed form -/

/-- Digit `n` of the sum is settled by the eights up to it: those above are multiples of the next power of 16. -/
theorem add_eights_div_mod (a : Nat) {n m : Nat} (h : n < m) :
    (a + eights m) / 16 ^ n % 16 = ((a + eights n) / 16 ^ n + 8) % 16 := by
  induction m, h using Nat.le_induction with
  | base => rw [add_eights_succ_div]
  | succ m hm ih =>
    obtain ⟨d, rfl⟩ := Nat.exists_eq_add_of_le hm
    have hpow : 8 * 16 ^ (n + 1 + d) = 16 ^ n * (16 * (8 * 16 ^ d)) := by ring
    rw [← ih, eights_succ, ← Nat.add_assoc, hpow, Nat.add_mul_div_left _ _ (by positivity),
      Nat.add_mul_mod_self_left]

theorem signedDigit_low (a : BitVec 256) {i : Nat} (h : i < 63) :
    signedDigit a i = (((a.toNat + eights 63) / 16 ^ i % 16 : Nat) : Int) - 8 := by
  have hcarry := digits_add_carryInto a i
  rw [signedDigit, if_pos h, carryInto_succ, nibble_eq_digit, add_eights_div_mod _ h]
  omega

theorem signedDigit_top (a : BitVec 256) : signedDigit a 63 = ((a.toNat + eights 63) / 2 ^ 252 : Nat) := by
  have hcarry := digits_add_carryInto a 63
  have ha := a.isLt
  rw [signedDigit, if_neg (by decide), nibble_eq_digit]
  omega

/-- ENC's digits fit `int8`, whatever the scalar (41_digit_encoder R104, R107). -/
theorem digitAt_encodeDigits (a : BitVec 256) (i : Fin 64) : digitAt (encodeDigits a) i = signedDigit a i := by
  have hfits : -8 ≤ signedDigit a i ∧ signedDigit a i ≤ 16 := by
    by_cases hi : i.val < 63
    · rw [signedDigit_low a hi]; omega
    · have htop : i.val = 63 := by omega
      have heights := eights_mul_fifteen 63
      have ha := a.isLt
      rw [htop, signedDigit_top]
      omega
  rw [digitAt, encodeDigits, Vector.get_ofFn, BitVec.toInt_ofInt]
  exact Int.bmod_eq_of_le (by omega) (by omega)

/-- Settles O20: the digits and the carries are those of the addition of the eights. -/
theorem encWritesTheClosedFormDigits : Obligations.EncWritesTheClosedFormDigits := by
  intro s
  refine ⟨encodeDigits s.snapS, ?_, fun i => ?_, fun i _ => carryInto_eq_ite s.snapS (i + 1)⟩
  · rw [exec_uop rfl rfl, uopNext_enc]
    rfl
  · rw [digitAt_encodeDigits]
    split
    case isTrue hi => exact signedDigit_low s.snapS hi
    case isFalse hi =>
      have htop : i.val = 63 := by omega
      rw [htop, signedDigit_top]
      rfl

/-! ### The positional sum -/

/-- A carry moves `16` units of a digit to one unit of the next, so what the digits below `n` leave out is the carry
into digit `n` (41_digit_encoder R104). -/
theorem sum_signedDigit (a : BitVec 256) {n : Nat} (h : n ≤ 63) :
    ∑ i ∈ Finset.range n, signedDigit a i * 16 ^ i = (a.toNat % 16 ^ n : Nat) - carryInto a n * 16 ^ n := by
  induction n with
  | zero => simp [carryInto, Nat.mod_one]
  | succ n ih =>
    rw [Finset.sum_range_succ, ih (by omega), signedDigit, if_pos (by omega), nibble_eq_digit, pow_succ 16 n,
      Nat.mod_mul]
    push_cast
    ring

theorem digitSum_encodeDigits (a : BitVec 256) : digitSum (encodeDigits a) = a.toNat := by
  have htop : a.toNat / 16 ^ 63 % 16 = a.toNat / 16 ^ 63 := Nat.mod_eq_of_lt (by have := a.isLt; omega)
  have hsplit : (a.toNat : Int) = (a.toNat % 16 ^ 63 : Nat) + (a.toNat / 16 ^ 63 : Nat) * 16 ^ 63 := by omega
  calc digitSum (encodeDigits a) = ∑ i : Fin 64, signedDigit a i * 16 ^ i.val := by
        simp only [digitSum, digitAt_encodeDigits]
    _ = ∑ i ∈ Finset.range 64, signedDigit a i * 16 ^ i :=
        Fin.sum_univ_eq_sum_range (fun i => signedDigit a i * 16 ^ i) 64
    _ = (a.toNat % 16 ^ 63 : Nat) - carryInto a 63 * 16 ^ 63 + signedDigit a 63 * 16 ^ 63 := by
        rw [Finset.sum_range_succ, sum_signedDigit a le_rfl]
    _ = a.toNat := by
        rw [signedDigit, if_neg (by decide), nibble_eq_digit, htop, hsplit]
        ring

/-- Settles O21: the ranges from the closed form, the sum by telescoping the carries. -/
theorem digitsAreInRangeAndSumToTheScalar : Obligations.DigitsAreInRangeAndSumToTheScalar := by
  intro a ha
  have heights := eights_mul_fifteen 63
  refine ⟨fun i hi => ?_, ?_, digitSum_encodeDigits a⟩
  · rw [digitAt_encodeDigits, signedDigit_low a hi]
    omega
  · have htop : digitAt (encodeDigits a) 63 = ((a.toNat + eights 63) / 2 ^ 252 : Nat) :=
      (digitAt_encodeDigits a 63).trans (signedDigit_top a)
    rw [htop]
    omega

end Sys2Proof.Machine
end

section
/-! What SEL selects (43_selector R141 to R149): the masked passes leave the table entry of the digit's magnitude, negated
for a negative digit. -/

namespace Sys2Proof.Machine

/-! ### Masks -/

theorem cmov_allOnes (f g : Fe) : cmov f g (BitVec.allOnes 256) = g := by
  rw [cmov, BitVec.not_allOnes, BitVec.and_zero, BitVec.zero_or, BitVec.and_allOnes]

theorem cmov_zero (f g : Fe) : cmov f g 0 = f := by
  change f &&& ~~~0#256 ||| g &&& 0#256 = f
  rw [BitVec.not_zero, BitVec.and_allOnes, BitVec.and_zero, BitVec.or_zero]

theorem cmovCached_ite (p : Prop) [Decidable p] (t u : CachedPoint) :
    cmovCached t u (if p then BitVec.allOnes 256 else 0) = if p then u else t := by
  split
  · simp only [cmovCached, cmov_allOnes]
  · simp only [cmovCached, cmov_zero]

/-- The sign of a stored digit, spread over a field's bits, is all ones for a negative digit (43_selector R141, R147). -/
theorem signMask_digitSign (b : Digit) : signMask (digitSign b) = if b.toInt < 0 then BitVec.allOnes 256 else 0 := by
  revert b; decide

/-- The magnitude of a stored digit (43_selector R142). -/
theorem digitAbs_eq_natAbs (b : Digit) : digitAbs b = BitVec.ofNat 64 b.toInt.natAbs := by
  revert b; decide

theorem natAbs_toInt_le (b : Digit) : b.toInt.natAbs ≤ 128 := by
  have := b.toInt_lt
  have := b.le_toInt
  omega

theorem digitAbs_eq_ofNat_iff (b : Digit) {m : Nat} (hm : m ≤ 8) :
    digitAbs b = BitVec.ofNat 64 m ↔ b.toInt.natAbs = m := by
  have := natAbs_toInt_le b
  rw [digitAbs_eq_natAbs, ← BitVec.toNat_inj, BitVec.toNat_ofNat, BitVec.toNat_ofNat]
  omega

/-! ### The eight passes -/

/-- Passes that each take their value when `n` is theirs leave the value of `n`, if there is a pass for it. -/
theorem foldl_ite_eq {α : Type} (n : Nat) (f : Nat → α) (ms : List Nat) (a : α) :
    ms.foldl (fun t m => if n = m then f m else t) a = if n ∈ ms then f n else a := by
  induction ms generalizing a with
  | nil => rfl
  | cons m ms ih =>
    rw [List.foldl_cons, ih]
    by_cases hm : n = m <;> simp [hm]

/-- The table entry of a magnitude; a magnitude that matches none has the identity (43_selector R149, 93 U3). -/
def entryOf (P : Pau) (T : Vector CachedPoint 8) (n : Nat) : CachedPoint :=
  if h : 1 ≤ n ∧ n ≤ 8 then T.get ⟨n - 1, by omega⟩ else P.e2c P.identityExt

theorem selectedMultiple_eq_ite (P : Pau) (T : Vector CachedPoint 8) (b : Int) :
    selectedMultiple P T b =
      if b < 0 then negCached P (entryOf P T b.natAbs) else entryOf P T b.natAbs := rfl

/-- SEL's passes leave the entry of the digit's magnitude (43_selector R148). -/
theorem foldl_passes (P : Pau) (T : Vector CachedPoint 8) (b : Digit) :
    [1, 2, 3, 4, 5, 6, 7, 8].foldl
        (fun t m => cmovCached t (T.get (tblIndex (m - 1))) (eqMask (digitAbs b) m)) (identityCached P) =
      entryOf P T b.toInt.natAbs := by
  have hmem : b.toInt.natAbs ∈ [1, 2, 3, 4, 5, 6, 7, 8] ↔ 1 ≤ b.toInt.natAbs ∧ b.toInt.natAbs ≤ 8 := by
    simp only [List.mem_cons, List.not_mem_nil, or_false]
    omega
  calc _ = [1, 2, 3, 4, 5, 6, 7, 8].foldl
        (fun t m => if b.toInt.natAbs = m then T.get (tblIndex (m - 1)) else t) (identityCached P) :=
      List.foldl_ext _ _ _ fun t m hm => by
        have hm : m ≤ 8 := by simp only [List.mem_cons, List.not_mem_nil, or_false] at hm; omega
        simp only [eqMask, cmovCached_ite, digitAbs_eq_ofNat_iff b hm]
    _ = _ := by
      rw [foldl_ite_eq, entryOf]
      by_cases h : 1 ≤ b.toInt.natAbs ∧ b.toInt.natAbs ≤ 8
      · rw [if_pos (hmem.mpr h), dif_pos h]
        exact congrArg T.get (Fin.ext (tblIndex_val _ (by omega)))
      · rw [if_neg (mt hmem.mp h), dif_neg h, identityCached]

/-- SEL selects what 43_selector R149 tabulates, whatever the digit. -/
theorem selected_eq_selectedMultiple (P : Pau) (T : Vector CachedPoint 8) (b : Digit) :
    selected P T b = selectedMultiple P T b.toInt := by
  simp only [selected, foldl_passes, signMask_digitSign, cmovCached_ite, selectedMultiple_eq_ite]

end Sys2Proof.Machine
end

section
/-! The partial values `V(k)` of a digit file (44_evaluator R167). -/

namespace Sys2Proof.Machine

/-- One Horner step: digit `k` stands below `16` times the digits above it. -/
theorem digitsFrom_eq_add (E : Vector Digit 64) (k : Fin 64) :
    digitsFrom E k.val = 2 ^ 4 * digitsFrom E (k.val + 1) + digitAt E k := by
  have hterm (j : Fin 64) : (if k.val ≤ j.val then digitAt E j * 16 ^ (j.val - k.val) else 0) =
      2 ^ 4 * (if k.val + 1 ≤ j.val then digitAt E j * 16 ^ (j.val - (k.val + 1)) else 0) +
        if k = j then digitAt E j else 0 := by
    obtain hlt | rfl | hgt := lt_trichotomy j k
    · have hout : ¬ k.val ≤ j.val ∧ ¬ k.val + 1 ≤ j.val := by omega
      simp [hout, hlt.ne']
    · simp
    · have hin : k.val ≤ j.val ∧ k.val + 1 ≤ j.val := by omega
      have hexp : j.val - k.val = j.val - (k.val + 1) + 1 := by omega
      simp only [hin, if_true, hgt.ne, if_false, hexp, pow_succ]
      ring
  simp only [digitsFrom, hterm, Finset.sum_add_distrib, Finset.mul_sum, Finset.sum_ite_eq, Finset.mem_univ, if_true]

theorem digitsFrom_last (E : Vector Digit 64) : digitsFrom E 63 = digitAt E 63 := by
  have hnone : digitsFrom E 64 = 0 := Finset.sum_eq_zero fun j _ => if_neg (by omega)
  have hstep := digitsFrom_eq_add E 63
  rwa [show ((63 : Fin 64).val + 1) = 64 from rfl, hnone, mul_zero, zero_add] at hstep

theorem digitsFrom_zero (E : Vector Digit 64) : digitsFrom E 0 = digitSum E := by
  simp only [digitsFrom, digitSum, Nat.zero_le, if_true, Nat.sub_zero]

/-- ENC's digits under the precondition have a magnitude that SEL selects (41_digit_encoder R104). -/
theorem natAbs_digitAt_encodeDigits_le {a : BitVec 256} (ha : a.toNat < 2 ^ 255) (i : Fin 64) :
    (digitAt (encodeDigits a) i).natAbs ≤ 8 := by
  obtain ⟨hlow, htop, -⟩ := digitsAreInRangeAndSumToTheScalar a ha
  by_cases hi : i.val < 63
  · have := hlow i hi
    omega
  · obtain rfl : i = 63 := by omega
    omega

end Sys2Proof.Machine
end

section
/-! What the PAU's answers and the selector's output denote under the laws (00_scope R10, 43_selector R149). -/

namespace Sys2Proof.Machine

section
variable {P : Pau} {G : Type} [AddCommGroup G] {D : Denotation G}

theorem PauLaws.c2e_denotes (L : PauLaws P D) {r : ComplPoint} {g : G} (hr : D.okCompl r ∧ D.compl r = g) :
    D.okExt (P.c2e r) ∧ D.ext (P.c2e r) = g :=
  hr.2 ▸ L.c2e r hr.1

theorem PauLaws.c2p_denotes (L : PauLaws P D) {r : ComplPoint} {g : G} (hr : D.okCompl r ∧ D.compl r = g) :
    D.okProj (P.c2p r) ∧ D.proj (P.c2p r) = g :=
  hr.2 ▸ L.c2p r hr.1

theorem PauLaws.e2c_denotes (L : PauLaws P D) {p : ExtPoint} {g : G} (hp : D.okExt p ∧ D.ext p = g) :
    D.okCached (P.e2c p) ∧ D.cached (P.e2c p) = g :=
  hp.2 ▸ L.e2c p hp.1

theorem PauLaws.dbl_denotes (L : PauLaws P D) {p : ProjPoint} {g : G} (hp : D.okProj p ∧ D.proj p = g) :
    D.okCompl (P.dbl p) ∧ D.compl (P.dbl p) = g + g :=
  hp.2 ▸ L.dbl p hp.1

theorem PauLaws.add_denotes (L : PauLaws P D) {p : ExtPoint} {c : CachedPoint} {g g' : G}
    (hp : D.okExt p ∧ D.ext p = g) (hc : D.okCached c ∧ D.cached c = g') :
    D.okCompl (P.add p c) ∧ D.compl (P.add p c) = g + g' :=
  hp.2 ▸ hc.2 ▸ L.add p c hp.1 hc.1

theorem PauLaws.neg_denotes (L : PauLaws P D) {c : CachedPoint} {g : G} (hc : D.okCached c ∧ D.cached c = g) :
    D.okCached (negCached P c) ∧ D.cached (negCached P c) = -g :=
  hc.2 ▸ L.neg c hc.1

/-- The entry of a magnitude, with the multiples of `g` in the table. -/
theorem PauLaws.entryOf_denotes (L : PauLaws P D) {T : Vector CachedPoint 8} {g : G}
    (hT : ∀ k : Fin 8, D.okCached (T.get k) ∧ D.cached (T.get k) = (k.val + 1) • g) {n : Nat} (hn : n ≤ 8) :
    D.okCached (entryOf P T n) ∧ D.cached (entryOf P T n) = n • g := by
  unfold entryOf
  split
  next h => simpa only [Nat.sub_add_cancel h.1] using hT ⟨n - 1, by omega⟩
  next h =>
    obtain rfl : n = 0 := by omega
    rw [zero_nsmul]
    exact L.e2c_denotes L.identity

/-- The selection for a digit denotes its multiple of `g`, with the multiples of `g` in the table. -/
theorem PauLaws.selectedMultiple_denotes (L : PauLaws P D) {T : Vector CachedPoint 8} {g : G}
    (hT : ∀ k : Fin 8, D.okCached (T.get k) ∧ D.cached (T.get k) = (k.val + 1) • g) {b : Int} (hb : b.natAbs ≤ 8) :
    D.okCached (selectedMultiple P T b) ∧ D.cached (selectedMultiple P T b) = b • g := by
  have hentry := L.entryOf_denotes hT hb
  rw [← natCast_zsmul] at hentry
  rw [selectedMultiple_eq_ite]
  split
  next hneg => simpa [Int.ofNat_natAbs_of_nonpos hneg.le] using L.neg_denotes hentry
  next hpos => rwa [Int.natAbs_of_nonneg (not_lt.mp hpos)] at hentry

end

end Sys2Proof.Machine
end

section
/-! What a running operation's registers denote at each position (42_table_builder R125, 44_evaluator R167): every step
keeps it. -/

namespace Sys2Proof.Machine

section
variable {G : Type} [AddCommGroup G] {D : Denotation G} {s : State} {n : Nat} {i : Instr}
  (h : s.OnMultiples D) (L : PauLaws Config.pau D) (hn : s.upc.toNat = n) (hp : ScheduledAt n i)

/-! ### The registers, uop by uop -/

include h

/-- From position 23 on the table holds all eight multiples. -/
theorem State.OnMultiples.full_table (hn : 23 ≤ s.upc.toNat) (k : Fin 8) :
    D.okCached (s.TBL.get k) ∧ D.cached (s.TBL.get k) = (k.val + 1) • D.ext s.snapA :=
  h.table k (by omega)

include L

/-- The selection for digit `d` in a running legal state, from position 23 on. -/
theorem State.OnMultiples.selected_denotes (hinv : s.Inv) (hb : s.status.busy = true) (hn : 23 ≤ s.upc.toNat)
    (d : BitVec 6) :
    D.okCached (selected Config.pau s.TBL (s.E.get d.toFin)) ∧
      D.cached (selected Config.pau s.TBL (s.E.get d.toFin)) = digitAt s.E d.toFin • D.ext s.snapA := by
  rw [selected_eq_selectedMultiple]
  refine L.selectedMultiple_denotes (h.full_table hn) ?_
  rw [hinv.digits_encoded hb (by omega)]
  exact natAbs_digitAt_encodeDigits_le (hinv.scalar_in_range hb) d.toFin

include hn hp

theorem State.OnMultiples.next_table (k : Fin 8) (hk : 3 * k.val + 2 ≤ n + 1) :
    D.okCached ((uopNext i s).TBL.get k) ∧
      D.cached ((uopNext i s).TBL.get k) = (k.val + 1) • D.ext s.snapA := by
  cases hp with
  | tcache =>
    obtain rfl : k = 0 := by omega
    simpa [Vector.get_eq_getElem] using L.e2c_denotes ⟨h.base, rfl⟩
  | te2c m lo hi =>
    by_cases hm : k.val = m.toNat
    · have hH := L.e2c_denotes (h.after_c2e m.toNat lo hi hn)
      simpa [Vector.get_eq_getElem, tblIndex_val _ hi, hm] using hH
    · simpa [Vector.get_eq_getElem, tblIndex_val _ hi, Vector.getElem_set, Ne.symm hm] using h.table k (by omega)
  | _ => simpa using h.table k (by omega)

theorem State.OnMultiples.next_after_tadd (k : Nat) (lo : 1 ≤ k) (hi : k ≤ 7) (hk : n + 1 = 3 * k) :
    D.okCompl (uopNext i s).R ∧ D.compl (uopNext i s).R = (k + 1) • D.ext s.snapA := by
  cases hp with
  | tadd m =>
    obtain rfl : m.toNat = k := by omega
    have hm : (tblIndex (m.toNat - 1)).val = m.toNat - 1 := tblIndex_val _ (by omega)
    have hsum := L.add_denotes ⟨h.base, rfl⟩ (h.table (tblIndex (m.toNat - 1)) (by omega))
    rw [hm, Nat.sub_add_cancel lo, ← succ_nsmul'] at hsum
    simpa using hsum
  | _ => omega

theorem State.OnMultiples.next_after_c2e (k : Nat) (lo : 1 ≤ k) (hi : k ≤ 7) (hk : n + 1 = 3 * k + 1) :
    D.okExt (uopNext i s).H ∧ D.ext (uopNext i s).H = (k + 1) • D.ext s.snapA := by
  cases hp with
  | tableC2e m => simpa using L.c2e_denotes (h.after_tadd k lo hi (by omega))
  | _ => omega

theorem State.OnMultiples.next_after_sel63 (hinv : s.Inv) (hb : s.status.busy = true) (hk : n + 1 = 24) :
    D.okCached (uopNext i s).C ∧ D.cached (uopNext i s).C = digitAt s.E 63 • D.ext s.snapA := by
  cases hp with
  | topSel => simpa using h.selected_denotes L hinv hb (by omega) 63
  | _ => omega

theorem State.OnMultiples.next_at_digit (k : Nat) (hk63 : k ≤ 63) (hk : n + 1 = 25 + 11 * (63 - k)) :
    D.okCompl (uopNext i s).R ∧ D.compl (uopNext i s).R = digitsFrom s.E k • D.ext s.snapA := by
  cases hp with
  | addi =>
    obtain rfl : k = 63 := by omega
    have hsum := L.add_denotes L.identity (h.after_sel63 hn)
    rw [zero_add, ← digitsFrom_last] at hsum
    simpa using hsum
  | add d hd =>
    obtain rfl : d.toNat = k := by omega
    have hsum := L.add_denotes (h.doubled d.toNat hd 10 (.inr rfl) (by omega))
      (h.after_sel ⟨d.toNat, by omega⟩ (by simp only; omega))
    rw [← add_zsmul] at hsum
    have hstep := digitsFrom_eq_add s.E (Fin.castSucc ⟨d.toNat, by omega⟩)
    rw [Fin.val_castSucc] at hstep
    rw [← hstep] at hsum
    simpa using hsum
  | _ => omega

theorem State.OnMultiples.next_after_c2p (d : Nat) (hd : d ≤ 62) (j : Nat) (hj : j < 4)
    (hk : n + 1 = 25 + 11 * (62 - d) + 2 * j + 1) :
    D.okProj (uopNext i s).S ∧
      D.proj (uopNext i s).S = (2 ^ j * digitsFrom s.E (d + 1)) • D.ext s.snapA := by
  have hR : D.okCompl s.R ∧ D.compl s.R = (2 ^ j * digitsFrom s.E (d + 1)) • D.ext s.snapA := by
    cases j with
    | zero =>
      rw [pow_zero, one_mul]
      exact h.at_digit (d + 1) (by omega) (by omega)
    | succ j => exact h.after_dbl d hd j (by omega) (by omega)
  cases hp with
  | c2p => simpa using L.c2p_denotes hR
  | _ => omega

theorem State.OnMultiples.next_after_dbl (d : Nat) (hd : d ≤ 62) (j : Nat) (hj : j < 4)
    (hk : n + 1 = 25 + 11 * (62 - d) + 2 * j + 2) :
    D.okCompl (uopNext i s).R ∧
      D.compl (uopNext i s).R = (2 ^ (j + 1) * digitsFrom s.E (d + 1)) • D.ext s.snapA := by
  cases hp with
  | dbl =>
    have htwice := L.dbl_denotes (h.after_c2p d hd j hj (by omega))
    rw [← add_zsmul, ← two_mul, ← mul_assoc, ← pow_succ'] at htwice
    simpa using htwice
  | _ => omega

theorem State.OnMultiples.next_doubled (d : Nat) (hd : d ≤ 62) (r : Nat) (hr : r = 9 ∨ r = 10)
    (hk : n + 1 = 25 + 11 * (62 - d) + r) :
    D.okExt (uopNext i s).H ∧ D.ext (uopNext i s).H = (2 ^ 4 * digitsFrom s.E (d + 1)) • D.ext s.snapA := by
  cases hp with
  | digitC2e => simpa using L.c2e_denotes (h.after_dbl d hd 3 (by omega) (by omega))
  | sel => simpa using h.doubled d hd 9 (.inl rfl) (by omega)
  | _ => omega

theorem State.OnMultiples.next_after_sel (hinv : s.Inv) (hb : s.status.busy = true) (d : Fin 63)
    (hk : n + 1 = 25 + 11 * (62 - d.val) + 10) :
    D.okCached (uopNext i s).C ∧ D.cached (uopNext i s).C = digitAt s.E d.castSucc • D.ext s.snapA := by
  cases hp with
  | sel m hm =>
    have hd : d.castSucc = m.toFin := Fin.ext (by change d.val = m.toNat; omega)
    rw [hd]
    simpa using h.selected_denotes L hinv hb (by omega) m
  | _ => omega

end

/-! ### The step -/

/-- A uop other than FIN moves to the next position. -/
theorem ScheduledAt.toNat_upc_uopNext {s : State} {i : Instr} (hp : ScheduledAt s.upc.toNat i) (hf : i ≠ .fin) :
    (uopNext i s).upc.toNat = s.upc.toNat + 1 := by
  obtain ⟨E, TBL, R, S, H, C, e, hi, -⟩ := uopNext_of_ne_fin hp.isUop hf s
  rw [hi]
  exact hp.toNat_upc_succ

section
variable {G : Type} [AddCommGroup G] {D : Denotation G} {s : State} {i : Instr}

/-- A scheduled uop other than FIN leaves what the registers denote at the next position. -/
theorem State.OnMultiples.next (h : s.OnMultiples D) (L : PauLaws Config.pau D) (hinv : s.Inv)
    (hb : s.status.busy = true) (hp : ScheduledAt s.upc.toNat i) (hf : i ≠ .fin) :
    (uopNext i s).OnMultiples D := by
  obtain ⟨-, -, -, hA, -⟩ := uopNext_keeps_inputs hp.isUop s
  have hu := hp.toNat_upc_uopNext hf
  have hE (hpos : 1 ≤ s.upc.toNat) : (uopNext i s).E = s.E := by
    rw [uopNext_digits hp hf hb hinv, hinv.digits_encoded hb hpos]
  constructor <;> simp only [hA, hu]
  case base => exact h.base
  case table => exact h.next_table L rfl hp
  case after_tadd => exact h.next_after_tadd L rfl hp
  case after_c2e => exact h.next_after_c2e L rfl hp
  case after_sel63 => exact fun hk => hE (by omega) ▸ h.next_after_sel63 L rfl hp hinv hb hk
  case at_digit => exact fun k hk63 hk => hE (by omega) ▸ h.next_at_digit L rfl hp k hk63 hk
  case after_c2p => exact fun d hd j hj hk => hE (by omega) ▸ h.next_after_c2p L rfl hp d hd j hj hk
  case after_dbl => exact fun d hd j hj hk => hE (by omega) ▸ h.next_after_dbl L rfl hp d hd j hj hk
  case doubled => exact fun d hd r hr hk => hE (by omega) ▸ h.next_doubled L rfl hp d hd r hr hk
  case after_sel => exact fun d hk => hE (by omega) ▸ h.next_after_sel L rfl hp hinv hb d hk

/-- FIN leaves the scalar multiple of the base in RESULT (44_evaluator R169, 45_sequencer R188). -/
theorem State.OnMultiples.result_fin (h : s.OnMultiples D) (L : PauLaws Config.pau D) (hinv : s.Inv)
    (hb : s.status.busy = true) (hu : s.upc.toNat = 718) :
    D.ext (uopNext .fin s).result = s.snapS.toNat • D.ext s.snapA := by
  have hR := h.at_digit 0 (by omega) hu
  rw [digitsFrom_zero, hinv.digits_encoded hb (by omega), digitSum_encodeDigits, natCast_zsmul] at hR
  rw [uopNext_fin]
  exact (L.c2e_denotes hR).2

/-- What the registers denote is a matter of the internal registers only. -/
theorem State.OnMultiples.congr {t : State} (h : s.OnMultiples D) (hst : sameInternals s t) : t.OnMultiples D := by
  obtain ⟨-, hA, hE, hTBL, hR, hS, hH, hC, hu⟩ := hst
  constructor <;> simp only [← hA, ← hE, ← hTBL, ← hR, ← hS, ← hH, ← hC, ← hu]
  exacts [h.base, h.table, h.after_tadd, h.after_c2e, h.after_sel63, h.at_digit, h.after_c2p, h.after_dbl, h.doubled,
    h.after_sel]

/-- Before the first uop only the base has to denote a point. -/
theorem State.OnMultiples.of_first (hA : D.okExt s.snapA) (hu : s.upc = 0) : s.OnMultiples D := by
  have hu : s.upc.toNat = 0 := by simp [hu]
  constructor
  case base => exact hA
  all_goals intros; omega

end

/-! ### Host accesses -/

/-- An access writes no register that a running operation reads, and leaves it running (45_sequencer R189). -/
theorem HostEffect.of_busy {s u : State} (h : HostEffect s u) (hb : s.status.busy = true) :
    sameInternals s u ∧ u.status.busy = true := by
  cases h with
  | start =>
    obtain ⟨-, h⟩ | ⟨hidle, -⟩ | ⟨hidle, -⟩ := start_cases s
    · rw [h]
      exact ⟨⟨rfl, rfl, rfl, rfl, rfl, rfl, rfl, rfl, rfl⟩, hb⟩
    all_goals simp [hb] at hidle
  | writeStatus v =>
    refine ⟨⟨rfl, rfl, rfl, rfl, rfl, rfl, rfl, rfl, rfl⟩, ?_⟩
    rw [clearByStatusWrite_status, writeStatus_eq]
    exact hb
  | _ => exact ⟨⟨rfl, rfl, rfl, rfl, rfl, rfl, rfl, rfl, rfl⟩, hb⟩

/-- An access after which an idle block runs is an accepted START (46_host_interface R205). -/
theorem HostEffect.eq_accept {s u : State} (h : HostEffect s u) (hb : s.status.busy = false)
    (hu : u.status.busy = true) : u = accept { s with status := clearForStart s.status } := by
  cases h with
  | start =>
    obtain ⟨hbusy, -⟩ | ⟨-, -, h⟩ | ⟨-, -, h⟩ := start_cases s
    · simp [hb] at hbusy
    · exact h
    · rw [h] at hu
      exact absurd (hb.symm.trans hu) Bool.false_ne_true
  | writeStatus v =>
    rw [clearByStatusWrite_status, writeStatus_eq] at hu
    exact absurd (hb.symm.trans hu) Bool.false_ne_true
  | _ => exact absurd (hb.symm.trans hu) Bool.false_ne_true

/-! ### Every step -/

section
variable {G : Type} [AddCommGroup G] {D : Denotation G} {s t : State}

theorem hostTurn_keeps_onMultiples {a : Access} (h : s.status.busy = true → s.OnMultiples D)
    (hbase : s.status.busy = false → D.okExt s.base) (ht : hostTurn a s = .next t) :
    (t.status.busy = true → t.OnMultiples D) ∧ (s.status.busy = true → t.status.busy = true) := by
  obtain ⟨r, u, hu, rfl⟩ := hostTurn_cases ht
  cases hb : s.status.busy
  · refine ⟨fun htb => ?_, fun h => by simp at h⟩
    rw [hu.eq_accept hb htb]
    exact .of_first (hbase hb) rfl
  · obtain ⟨hsame, hub⟩ := hu.of_busy hb
    exact ⟨fun _ => (h hb).congr hsame, fun _ => hub⟩

theorem sequencerTurn_keeps_onMultiples (L : PauLaws Config.pau D) (hinv : s.Inv)
    (h : s.status.busy = true → s.OnMultiples D) (ht : sequencerTurn s = .next t) :
    (t.status.busy = true → t.OnMultiples D) ∧
      (s.status.busy = true → t.status.busy = false → D.ext t.result = s.snapS.toNat • D.ext s.snapA) := by
  obtain ⟨hb, rfl⟩ | ⟨hb, i, hp, rfl⟩ := sequencerTurn_cases ht
  · exact ⟨h, fun hbusy => by simp [hb] at hbusy⟩
  · by_cases hf : i = .fin
    · subst hf
      refine ⟨fun htb => ?_, fun _ _ => (h hb).result_fin L hinv hb (hp.fin_iff_last.mp rfl)⟩
      rw [uopNext_fin] at htb
      cases htb
    · obtain ⟨E, TBL, R, S, H, C, e, hi, -⟩ := uopNext_of_ne_fin hp.isUop hf s
      refine ⟨fun _ => (h hb).next L hinv hb hp hf, fun _ htb => ?_⟩
      rw [hi] at htb
      exact absurd (htb.symm.trans hb) Bool.false_ne_true

end

/-- Settles O55: by the agent whose turn it is; an access keeps what the registers denote, and only FIN ends BUSY. -/
theorem stepKeepsThePartialMultiple : Obligations.StepKeepsThePartialMultiple := by
  intro G _ D L s t hinv h hbase hstep
  have hinv' (rest : List Turn) : ({ s with turns := rest } : State).Inv := hinv.congr rfl rfl rfl rfl
  have h' (rest : List Turn) (hb : s.status.busy = true) : ({ s with turns := rest } : State).OnMultiples D :=
    (h hb).congr ⟨rfl, rfl, rfl, rfl, rfl, rfl, rfl, rfl, rfl⟩
  obtain ⟨l, rest, hreset, rfl⟩ | ⟨-, ⟨a, rest, -, ht⟩ | ⟨rest, -, ht⟩ | ⟨-, ht⟩⟩ := step_cases hstep
  · exact ⟨nofun, fun _ _ hno => absurd hreset (hno l rest)⟩
  · obtain ⟨hnext, hbusy⟩ := hostTurn_keeps_onMultiples (s := { s with turns := rest }) (h' rest) hbase ht
    exact ⟨hnext, fun hb hidle => absurd (hidle.symm.trans (hbusy hb)) Bool.false_ne_true⟩
  · obtain ⟨hnext, hfin⟩ := sequencerTurn_keeps_onMultiples L (hinv' rest) (h' rest) ht
    exact ⟨hnext, fun hb hidle _ => hfin hb hidle⟩
  · obtain ⟨hnext, hfin⟩ := sequencerTurn_keeps_onMultiples L hinv h ht
    exact ⟨hnext, fun hb hidle _ => hfin hb hidle⟩

end Sys2Proof.Machine
end

section
/-! The table build (42_table_builder): its uops, the table it leaves, and that neither the table nor the builder's events
depend on the scalar. -/

namespace Sys2Proof.Machine

/-! ### The four uops -/

/-- A uop word as a number (30_encoding R86). -/
theorem uopWord_eq_ofNat (j : BitVec 2) (idx : BitVec 6) (op : BitVec 4) :
    uopWord j idx op = BitVec.ofNat 12 (1024 * j.toNat + 16 * idx.toNat + op.toNat) := by
  apply BitVec.eq_of_toNat_eq
  have hj := j.isLt
  have hidx := idx.isLt
  have hop := op.isLt
  rw [uopWord, BitVec.toNat_append, BitVec.toNat_append, ← Nat.shiftLeft_add_eq_or_of_lt op.isLt,
    ← Nat.shiftLeft_add_eq_or_of_lt idx.isLt, BitVec.toNat_ofNat]
  omega

/-- Settles O22: each is the whole next state of its uop; the words and the table indices are those of `k`. -/
theorem tableUopsHaveTheirEffects : Obligations.TableUopsHaveTheirEffects := by
  intro s
  have hk (k : Fin 7) : (BitVec.ofNat 6 (k.val + 1)).toNat = k.val + 1 := by simp; omega
  have hwf (k : Fin 7) : (Instr.tadd (BitVec.ofNat 6 (k.val + 1))).wf = true := by revert k; decide
  have hprev (k : Fin 7) : tblIndex k.val = k.castSucc := Fin.ext (tblIndex_val _ (by omega))
  refine ⟨rfl, fun k => ?_, rfl, fun k => ?_⟩
  · rw [exec_uop (i := .tadd _) rfl (hwf k), uopNext_tadd]
    simp [uopWord_eq_ofNat, hk, hprev, logged]
  · rw [exec_uop (i := .te2c _) rfl (hwf k), uopNext_te2c]
    simp [uopWord_eq_ofNat, hk, logged]

/-! ### The multiples in the table -/

/-- Up to the last uop a run with no turn listed keeps what the registers denote, and the snapshots. -/
theorem run_keeps_onMultiples {G : Type} [AddCommGroup G] {D : Denotation G} (L : PauLaws Config.pau D) {m n : Nat}
    (hmn : n + m ≤ 718) {s : State} (hs : s.RunsAt n) (hinv : s.Inv) (h : s.OnMultiples D) :
    ∃ t, runSteps m s = .next t ∧ t.RunsAt (n + m) ∧ t.Inv ∧ t.OnMultiples D ∧ t.snapS = s.snapS ∧
      t.snapA = s.snapA := by
  induction m generalizing n s with
  | zero => exact ⟨s, rfl, hs, hinv, h, rfl, rfl⟩
  | succ m ih =>
    obtain ⟨i, hp, hstep⟩ := exists_step_at (n := n) (by omega)
    have hf : i ≠ .fin := fun hi => by have := hp.fin_iff_last.mp hi; omega
    have hpu : ScheduledAt s.upc.toNat i := hs.upc ▸ hp
    obtain ⟨-, -, hS, hA, -⟩ := uopNext_keeps_inputs hp.isUop s
    obtain ⟨t, hrun, ht, htinv, htD, htS, htA⟩ := ih (n := n + 1) (by omega) (hs.next hp hf)
      (uopNext_keeps_inv hpu hs.busy hinv) (h.next L hinv hs.busy hpu hf)
    refine ⟨t, ?_, ?_, htinv, htD, htS.trans hS, htA.trans hA⟩
    · rw [runSteps, hstep s hs]
      exact hrun
    · rwa [Nat.add_right_comm] at ht

/-- Settles O47: the run from the first uop keeps what the registers denote, and at 23 that is the whole table. -/
theorem tableHoldsTheMultiples : Obligations.TableHoldsTheMultiples := by
  intro G _ D L s hs ht hA
  have hrunsAt := hs.runsAt ht
  obtain ⟨hinv, -, hu⟩ := hs
  obtain ⟨t, hrun, hat, -, h, -, htA⟩ :=
    run_keeps_onMultiples (m := 23) L (by omega) hrunsAt hinv (.of_first hA hu)
  exact ⟨t, hrun, fun k => htA ▸ (h.full_table hat.upc.ge k).2⟩

/-! ### The scalar and the table -/

/-- The event a uop appends is the uop's own (45_sequencer R183). -/
theorem exists_event_of_uop {i : Instr} (hu : isUop i = true) :
    ∃ e, ∀ s : State, (uopNext i s).trace = s.trace ++ [e] := by
  cases i
  case enc => exact ⟨_, fun s => congrArg State.trace (uopNext_enc s)⟩
  case tcache => exact ⟨_, fun s => congrArg State.trace (uopNext_tcache s)⟩
  case tadd k => exact ⟨_, fun s => congrArg State.trace (uopNext_tadd k s)⟩
  case c2e => exact ⟨_, fun s => congrArg State.trace (uopNext_c2e s)⟩
  case te2c k => exact ⟨_, fun s => congrArg State.trace (uopNext_te2c k s)⟩
  case sel d => exact ⟨_, fun s => congrArg State.trace (uopNext_sel d s)⟩
  case addi => exact ⟨_, fun s => congrArg State.trace (uopNext_addi s)⟩
  case c2p j => exact ⟨_, fun s => congrArg State.trace (uopNext_c2p j s)⟩
  case dbl j => exact ⟨_, fun s => congrArg State.trace (uopNext_dbl j s)⟩
  case add d => exact ⟨_, fun s => congrArg State.trace (uopNext_add d s)⟩
  case fin => exact ⟨_, fun s => congrArg State.trace (uopNext_fin s)⟩
  all_goals cases hu

/-- The state with this scalar snapshot and this digit file. -/
def State.withDigits (s : State) (a : BitVec 256) (E : Vector Digit 64) : State :=
  { s with snapS := a, E := E }

/-- The table build reads no digit, and its ENC only writes them: but for those, replacing the scalar before a uop or
after it is the same (42_table_builder R126). -/
theorem uopNext_withDigits {n : Nat} {i : Instr} (hp : ScheduledAt n i) (hn : n < 23) (s : State) (a : BitVec 256)
    (E : Vector Digit 64) :
    uopNext i (s.withDigits a E) = (uopNext i s).withDigits a (uopNext i (s.withDigits a E)).E := by
  cases hp
  case enc => rw [uopNext_enc, uopNext_enc]; rfl
  case tcache | tadd | tableC2e | te2c => rfl
  all_goals omega

/-- Two operations agree at position `n` but for their scalars and digits. -/
def AgreeButDigitsAt (n : Nat) (s s' : State) : Prop :=
  AgreeAt n s (s'.withDigits s.snapS s.E)

theorem AgreeButDigitsAt.table {n : Nat} {s s' : State} (h : AgreeButDigitsAt n s s') (hn : 23 ≤ n) :
    s.TBL = s'.TBL :=
  AgreeAt.table (s' := s'.withDigits s.snapS s.E) h hn

theorem AgreeButDigitsAt.next {n : Nat} {s s' : State} {i : Instr} (h : AgreeButDigitsAt n s s')
    (hp : ScheduledAt n i) (hn : n < 23) : AgreeButDigitsAt (n + 1) (uopNext i s) (uopNext i s') := by
  obtain ⟨-, -, hS, -⟩ := uopNext_keeps_inputs hp.isUop s
  have hnext := AgreeAt.next h hp
  have hE := hnext.E (Nat.le_add_left 1 n)
  rwa [uopNext_withDigits hp hn, ← hE, ← hS] at hnext

/-- Within the table build, two operations with the same base go on to agree, and add the same events. -/
theorem run_agreeButDigits {m n : Nat} (hmn : n + m ≤ 23) {s s' : State} (hs : s.RunsAt n) (hs' : s'.RunsAt n)
    (h : AgreeButDigitsAt n s s') :
    ∃ t t' evs, runSteps m s = .next t ∧ runSteps m s' = .next t' ∧ AgreeButDigitsAt (n + m) t t' ∧
      t.trace = s.trace ++ evs ∧ t'.trace = s'.trace ++ evs := by
  induction m generalizing n s s' with
  | zero => exact ⟨s, s', [], rfl, rfl, h, by simp, by simp⟩
  | succ m ih =>
    obtain ⟨i, hp, hstep⟩ := exists_step_at (n := n) (by omega)
    have hf : i ≠ .fin := fun hi => by have := hp.fin_iff_last.mp hi; omega
    obtain ⟨e, he⟩ := exists_event_of_uop hp.isUop
    obtain ⟨t, t', evs, hrun, hrun', hagree, htrace, htrace'⟩ :=
      ih (by omega) (hs.next hp hf) (hs'.next hp hf) (h.next hp (by omega))
    rw [he, List.append_assoc] at htrace htrace'
    rw [Nat.add_right_comm] at hagree
    rw [runSteps, hstep s hs, runSteps, hstep s' hs']
    exact ⟨t, t', [e] ++ evs, hrun, hrun', hagree, htrace, htrace'⟩

/-- Settles O48: at position 0 the base is all there is to agree on besides the digits, and at 23 the table is. -/
theorem tableDoesNotDependOnTheScalar : Obligations.TableDoesNotDependOnTheScalar := by
  intro s s' hs hs' ht ht' hA
  have h0 : AgreeButDigitsAt 0 s s' := by constructor <;> simp [State.withDigits, hA]
  obtain ⟨t, t', evs, hrun, hrun', h, htrace, htrace'⟩ :=
    run_agreeButDigits (m := 23) (by omega) (hs.runsAt ht) (hs'.runsAt ht') h0
  exact ⟨t, t', evs, hrun, hrun', h.table (by omega), htrace, htrace'⟩

end Sys2Proof.Machine
end

section
/-! The selector's statements (43_selector): its digit arithmetic, its masked select, and the whole SEL step. -/

namespace Sys2Proof.Machine

/-! ### Digit arithmetic and the masked select -/

/-- The sign bit of a stored digit (43_selector R141). -/
theorem digitSign_eq_ite (b : Digit) : digitSign b = if b.toInt < 0 then 1 else 0 := by
  revert b; decide

/-- The magnitude of a stored digit is exact in 64 bits: it is at most 128. -/
theorem toInt_digitAbs (b : Digit) : (digitAbs b).toInt = |b.toInt| := by
  have hle := natAbs_toInt_le b
  rw [digitAbs_eq_natAbs, BitVec.toInt_ofNat', Int.bmod_eq_of_le (by omega) (by omega), Int.natCast_natAbs]

/-- Settles O27: the sign is evaluated for each of the 256 digits, the magnitude is exact in 64 bits. -/
theorem signAndMagnitudeOfADigit : Obligations.SignAndMagnitudeOfADigit :=
  fun b => ⟨digitSign_eq_ite b, toInt_digitAbs b⟩

/-- Settles O28: the mask keeps one word whole and clears the other. -/
theorem maskedSelectChoosesByTheMask : Obligations.MaskedSelectChoosesByTheMask :=
  fun f g => ⟨cmov_allOnes f g, cmov_zero f g⟩

/-! ### The SEL step -/

/-- The whole next state of SEL: the passes select the digit's multiple, and the event does not depend on the digit. -/
theorem exec_sel (i : BitVec 6) (s : State) :
    exec (.sel i) s = .next (logged { s with C := selectedMultiple Config.pau s.TBL (digitAt s.E i.toFin) }
      ⟨uopWord 0 i 0x6, [.E i, .TBL 0, .TBL 1, .TBL 2, .TBL 3, .TBL 4, .TBL 5, .TBL 6, .TBL 7], [.feNeg]⟩) := by
  rw [exec_uop (i := .sel i) rfl rfl, uopNext_sel, selected_eq_selectedMultiple, digitAt]

/-- Settles O25: the whole next state of SEL, with its word as a number. -/
theorem selWritesTheSelectedMultiple : Obligations.SelWritesTheSelectedMultiple := by
  intro s i
  rw [exec_sel, uopWord_eq_ofNat]
  simp [logged]

/-! ### The selection as a value -/

/-- The digit `k + 1` selects entry `k` (43_selector R149). -/
theorem selectedMultiple_succ (P : Pau) (T : Vector CachedPoint 8) (k : Fin 8) :
    selectedMultiple P T (k.val + 1) = T.get k := by
  rw [selectedMultiple_eq_ite, if_neg (by omega), entryOf, dif_pos (by omega)]
  exact congrArg T.get (Fin.ext (by simp only; omega))

/-- The digit `-(k + 1)` selects the negation of entry `k` (43_selector R149). -/
theorem selectedMultiple_neg_succ (P : Pau) (T : Vector CachedPoint 8) (k : Fin 8) :
    selectedMultiple P T (-(k.val + 1)) = negCached P (T.get k) := by
  rw [← selectedMultiple_succ P T k, selectedMultiple_eq_ite, selectedMultiple_eq_ite, if_pos (by omega),
    if_neg (by omega), Int.natAbs_neg]

/-- Settles O26: the value SEL leaves in C denotes the digit's multiple, and is an entry or its negation. -/
theorem selectionDenotesTheDigitMultiple : Obligations.SelectionDenotesTheDigitMultiple := by
  intro G _ D L s i g hT hlow hhigh
  refine ⟨_, exec_sel i s, (L.selectedMultiple_denotes hT (by omega)).2, fun k => ⟨fun hb => ?_, fun hb => ?_⟩⟩
  · rw [logged_C, hb, selectedMultiple_succ]
  · rw [logged_C, hb, selectedMultiple_neg_succ]

end Sys2Proof.Machine
end

section
/-! The evaluator's statements (44_evaluator): its uops, and the partial multiple in the accumulator. -/

namespace Sys2Proof.Machine

/-! ### The five uops -/

/-- Settles O23: each is the whole next state of its uop; the words are those of the operand. -/
theorem evaluatorUopsHaveTheirEffects : Obligations.EvaluatorUopsHaveTheirEffects := by
  intro s
  have hwf (i : Fin 63) : (Instr.add (BitVec.ofNat 6 i.val)).wf = true := by revert i; decide
  have hi (i : Fin 63) : i.val % 64 = i.val := Nat.mod_eq_of_lt (by omega)
  refine ⟨rfl, fun j => ?_, fun j => ?_, fun i => ?_⟩
  · rw [exec_uop (i := .c2p _) rfl rfl, uopNext_c2p]
    simp [uopWord_eq_ofNat, logged]
  · rw [exec_uop (i := .dbl _) rfl rfl, uopNext_dbl]
    simp [uopWord_eq_ofNat, logged]
  · rw [exec_uop (i := .add _) rfl (hwf i), uopNext_add]
    simp [uopWord_eq_ofNat, hi, logged]

/-- Settles O24: the next state of FIN. -/
theorem finWritesTheResult : Obligations.FinWritesTheResult := by
  intro s
  rw [exec_uop rfl rfl, uopNext_fin]
  rfl

/-! ### The partial value -/

/-- `V(k)`: a digit takes in the carry from below and hands on the carry above it, so from digit `k` up only the carry
into `k` is left (44_evaluator R167). -/
theorem digitsFrom_encodeDigits (a : BitVec 256) {k : Nat} (hk : k ≤ 63) :
    digitsFrom (encodeDigits a) k = (a.toNat / 16 ^ k : Nat) + carryInto a k := by
  induction hk using Nat.decreasingInduction with
  | self =>
    have htop : digitAt (encodeDigits a) 63 = signedDigit a 63 := digitAt_encodeDigits a 63
    have hlast : a.toNat / 16 ^ 63 % 16 = a.toNat / 16 ^ 63 := Nat.mod_eq_of_lt (by have := a.isLt; omega)
    rw [digitsFrom_last, htop, signedDigit, if_neg (by decide), nibble_eq_digit, hlast]
  | of_succ k hk ih =>
    have hstep : digitsFrom (encodeDigits a) k = 2 ^ 4 * digitsFrom (encodeDigits a) (k + 1) + signedDigit a k :=
      digitAt_encodeDigits a ⟨k, by omega⟩ ▸ digitsFrom_eq_add (encodeDigits a) ⟨k, by omega⟩
    have hdiv : a.toNat / 16 ^ (k + 1) = a.toNat / 16 ^ k / 16 := by rw [pow_succ, Nat.div_div_eq_div_mul]
    rw [hstep, ih, signedDigit, if_pos hk, nibble_eq_digit, hdiv]
    omega

/-! ### The accumulator -/

section
variable {G : Type} [AddCommGroup G] {D : Denotation G} {s : State}
  (L : PauLaws Config.pau D) (hs : s.AtFirstUop) (ht : s.turns = []) (hA : D.okExt s.snapA)
include L hs ht hA

/-- A run past ENC is at its position, with the scalar's digits and what the registers denote there. -/
theorem run_from_first_onMultiples {n : Nat} (hpos : 1 ≤ n) (hn : n ≤ 718) :
    ∃ t, runSteps n s = .next t ∧ t.upc.toNat = n ∧ t.OnMultiples D ∧ t.E = encodeDigits s.snapS ∧
      t.snapA = s.snapA := by
  have hat := hs.runsAt ht
  obtain ⟨hinv, -, hu⟩ := hs
  obtain ⟨t, hrun, htat, htinv, h, htS, htA⟩ :=
    run_keeps_onMultiples (m := n) L (by omega) hat hinv (.of_first hA hu)
  rw [Nat.zero_add] at htat
  exact ⟨t, hrun, htat.upc, h, htS ▸ htinv.digits_encoded htat.busy (htat.upc.symm ▸ hpos), htA⟩

/-- At the start of the digit below `k`, that is after ADDI or after ADD `k`. -/
theorem run_to_digit_denotes {n k : Nat} (hk : k ≤ 63) (hn : n = 25 + 11 * (63 - k)) :
    ∃ t, runSteps n s = .next t ∧ D.compl t.R = digitsFrom (encodeDigits s.snapS) k • D.ext s.snapA := by
  obtain ⟨t, hrun, hu, h, hE, htA⟩ := run_from_first_onMultiples L hs ht hA (n := n) (by omega) (by omega)
  exact ⟨t, hrun, hE ▸ htA ▸ (h.at_digit k hk (hu.trans hn)).2⟩

/-- After DBL `j` of digit `i`. -/
theorem run_to_dbl_denotes {i j : Nat} (hi : i ≤ 62) (hj : j < 4) :
    ∃ t, runSteps (25 + 11 * (62 - i) + 2 * j + 2) s = .next t ∧
      D.compl t.R = (2 ^ (j + 1) * digitsFrom (encodeDigits s.snapS) (i + 1)) • D.ext s.snapA := by
  obtain ⟨t, hrun, hu, h, hE, htA⟩ :=
    run_from_first_onMultiples L hs ht hA (n := 25 + 11 * (62 - i) + 2 * j + 2) (by omega) (by omega)
  exact ⟨t, hrun, hE ▸ htA ▸ (h.after_dbl i hi j hj hu).2⟩

end

/-- Settles O46: the run from the first uop keeps what the registers denote; the digits are those of the scalar. -/
theorem accumulatorHoldsThePartialMultiple : Obligations.AccumulatorHoldsThePartialMultiple := by
  intro G _ D L s hs ht hA
  refine ⟨run_to_digit_denotes L hs ht hA (k := 63) (by omega) (by omega), fun i hi => ⟨?_, fun j hj => ?_, ?_⟩,
    fun k hk => digitsFrom_encodeDigits s.snapS hk⟩
  · exact run_to_digit_denotes L hs ht hA (k := i + 1) (by omega) (by omega)
  · exact run_to_dbl_denotes L hs ht hA hi hj
  · exact run_to_digit_denotes L hs ht hA (k := i) (by omega) (by omega)

end Sys2Proof.Machine
end

section
/-! The schedule (45_sequencer R180 to R185): its uops, the events it fixes, and their counts. -/

namespace Sys2Proof.Machine

/-! ### The schedule's uops -/

/-- Settles O7: with a legal ERRCODE the step is the sequencer's turn, and that runs the scheduled uop. -/
theorem stepRunsTheScheduledUop : Obligations.StepRunsTheScheduledUop := by
  intro s w i hb he hw hi
  constructor
  · intro rest ht
    rw [step_of_sequencer ht he]
    exact sequencerTurn_of_sched hb hw hi
  · intro ht
    rw [step_of_no_turn ht he]
    exact sequencerTurn_of_sched hb hw hi

/-- Settles O30: each of the fifty words is evaluated. -/
theorem scheduleWordsOfTheSpec : Obligations.ScheduleWordsOfTheSpec := by
  unfold Obligations.ScheduleWordsOfTheSpec
  decide

/-- Settles O31: a position up to the last one holds the uop that R181 lists for it, and those are well-formed. -/
theorem scheduleHoldsOnlyWellFormedUops : Obligations.ScheduleHoldsOnlyWellFormedUops := by
  refine ⟨fun n hn => ?_, fun n hn => sched_past_last hn⟩
  obtain ⟨w, i, hw, hi, hp⟩ := sched_decodes (Nat.le_of_lt_succ hn)
  exact ⟨w, i, hw, hi, hp.wf⟩

/-! ### The events of the schedule -/

/-- A uop appends the event that the table of 45_sequencer R183 lists for its word. -/
theorem exists_tableEvent_of_uop {w : BitVec 12} {i : Instr} (hi : decodeUop w = .ok i) (hu : isUop i = true) :
    ∃ e, tableEvent w = some e ∧ ∀ s : State, (uopNext i s).trace = s.trace ++ [e] := by
  have hw := encode_of_decodeUop hi
  unfold tableEvent
  rw [hi]
  cases i
  case enc => cases hw; exact ⟨_, rfl, fun s => congrArg State.trace (uopNext_enc s)⟩
  case tcache | tadd | c2e | te2c | sel | addi | c2p | dbl | add | fin => cases hw; exact ⟨_, rfl, fun s => rfl⟩
  all_goals cases hu

/-- `ev(sched(n))` (45_sequencer R184); past the schedule, where there is none, an event with no uop. -/
def scheduledEvent (n : Nat) : Event :=
  ((sched n).bind tableEvent).getD ⟨0, [], []⟩

theorem scheduledEvent_eq {n : Nat} {w : BitVec 12} {e : Event} (hw : sched n = some w) (he : tableEvent w = some e) :
    scheduledEvent n = e := by
  simp [scheduledEvent, hw, he]

/-- At each position one uop runs, in every running state that is there, and it appends the position's event. -/
theorem exists_uop_with_event_at {n : Nat} (hn : n ≤ 718) :
    ∃ i, ScheduledAt n i ∧ ∀ s : State, s.status.busy = true → s.upc.toNat = n →
      sequencerTurn s = .next (uopNext i s) ∧ (uopNext i s).trace = s.trace ++ [scheduledEvent n] := by
  obtain ⟨w, i, hw, hi, hp⟩ := sched_decodes hn
  obtain ⟨e, he, htrace⟩ := exists_tableEvent_of_uop hi hp.isUop
  refine ⟨i, hp, fun s hb hs => ⟨?_, ?_⟩⟩
  · rw [sequencerTurn_of_sched hb (hs ▸ hw) hi, exec_uop hp.isUop hp.wf]
  · rw [htrace, scheduledEvent_eq hw he]

theorem fixedTrace_eq_map : fixedTrace = (List.range 719).map scheduledEvent := by
  refine List.filterMap_eq_map_iff_forall_eq_some.mpr fun n hn => ?_
  obtain ⟨w, i, hw, hi, hp⟩ := sched_decodes (Nat.le_of_lt_succ (List.mem_range.mp hn))
  obtain ⟨e, he, -⟩ := exists_tableEvent_of_uop hi hp.isUop
  rw [scheduledEvent_eq hw he, hw, Option.bind_some, he]

theorem take_succ_fixedTrace {n : Nat} (hn : n ≤ 718) :
    fixedTrace.take (n + 1) = fixedTrace.take n ++ [scheduledEvent n] := by
  have hlt : n < 719 := Nat.lt_succ_of_le hn
  rw [List.take_add_one, fixedTrace_eq_map, List.getElem?_map, List.getElem?_range hlt]
  rfl

theorem take_all_fixedTrace : fixedTrace.take 719 = fixedTrace :=
  List.take_of_length_le (by simp [fixedTrace_eq_map])

/-! ### The counts of the fixed trace -/

/-- The events before the first digit of the evaluation: ENC, the table build, SEL 63 and ADDI (45_sequencer R181). -/
def setupEvents : List Event :=
  (List.range 25).filterMap fun n => (sched n).bind tableEvent

/-- The eleven events of digit `i`: four doublings, C2E, SEL and ADD (44_evaluator R166). -/
def digitEvents (i : BitVec 6) : List Event :=
  [⟨uopWord 0 0 0x8, [.R], [.c2p]⟩, ⟨uopWord 0 0 0x9, [.S], [.dbl]⟩,
   ⟨uopWord 1 0 0x8, [.R], [.c2p]⟩, ⟨uopWord 1 0 0x9, [.S], [.dbl]⟩,
   ⟨uopWord 2 0 0x8, [.R], [.c2p]⟩, ⟨uopWord 2 0 0x9, [.S], [.dbl]⟩,
   ⟨uopWord 3 0 0x8, [.R], [.c2p]⟩, ⟨uopWord 3 0 0x9, [.S], [.dbl]⟩,
   ⟨uopWord 0 0 0x4, [.R], [.c2e]⟩,
   ⟨uopWord 0 i 0x6, [.E i, .TBL 0, .TBL 1, .TBL 2, .TBL 3, .TBL 4, .TBL 5, .TBL 6, .TBL 7], [.feNeg]⟩,
   ⟨uopWord 0 i 0xA, [.H, .C], [.add]⟩]

/-- The event of FIN (44_evaluator R169). -/
def finEvent : Event :=
  ⟨uopWord 0 0 0xB, [.R], [.c2e]⟩

theorem sched_digit {m r : Nat} (hm : m < 63) (hr : r < 11) : sched (25 + 11 * m + r) = some (digitUop (62 - m) r) := by
  have hdiv : (25 + 11 * m + r - 25) / 11 = m := by omega
  have hmod : (25 + 11 * m + r - 25) % 11 = r := by omega
  unfold sched
  rw [if_neg, if_neg, if_neg, if_neg, if_neg, if_pos, hdiv, hmod] <;> omega

theorem filterMap_tableEvent_digitUop (i : Nat) :
    (List.range 11).filterMap (fun r => tableEvent (digitUop i r)) = digitEvents (BitVec.ofNat 6 i) := by
  have hword : (List.range 11).map (digitUop i) = (digitEvents (BitVec.ofNat 6 i)).map Event.word := rfl
  have hevent : ∀ d, ((digitEvents d).map Event.word).filterMap tableEvent = digitEvents d := by decide
  rw [← hevent, ← hword, List.filterMap_map]
  rfl

/-- The events up to a digit, from digit 62 down (45_sequencer R181). -/
theorem filterMap_events_range {m : Nat} (hm : m ≤ 63) :
    (List.range (25 + 11 * m)).filterMap (fun n => (sched n).bind tableEvent) =
      setupEvents ++ (List.range m).flatMap fun k => digitEvents (BitVec.ofNat 6 (62 - k)) := by
  induction m with
  | zero => simp [setupEvents]
  | succ m ih =>
    have hdigit : (List.range 11).filterMap (fun r => (sched (25 + 11 * m + r)).bind tableEvent) =
        digitEvents (BitVec.ofNat 6 (62 - m)) := by
      rw [← filterMap_tableEvent_digitUop]
      refine List.filterMap_congr fun r hr => ?_
      rw [sched_digit hm (List.mem_range.mp hr), Option.bind_some]
    rw [Nat.mul_succ, ← Nat.add_assoc, List.range_add, List.filterMap_append, ih (by omega), List.filterMap_map,
      List.range_succ (n := m), List.flatMap_append, List.flatMap_singleton, ← hdigit, List.append_assoc]
    rfl

/-- The fixed trace, part by part (45_sequencer R181). -/
theorem fixedTrace_eq_append :
    fixedTrace = setupEvents ++ ((List.range 63).flatMap fun k => digitEvents (BitVec.ofNat 6 (62 - k))) ++
      [finEvent] := by
  rw [fixedTrace, nUops, List.range_succ, List.filterMap_append, filterMap_events_range (m := 63) (by decide)]
  rfl

/-- What is counted over the fixed trace, where every digit contributes the same. -/
theorem count_fixedTrace {F : List Event → Nat} (hF : ∀ l l', F (l ++ l') = F l + F l')
    (hdigit : ∀ i, F (digitEvents i) = F (digitEvents 0)) :
    F fixedTrace = F setupEvents + 63 * F (digitEvents 0) + F [finEvent] := by
  have hnil : F [] = 0 := by simpa using hF [] []
  have hdigits (m : Nat) :
      F ((List.range m).flatMap fun k => digitEvents (BitVec.ofNat 6 (62 - k))) = m * F (digitEvents 0) := by
    induction m with
    | zero => simpa using hnil
    | succ m ih => rw [List.range_succ, List.flatMap_append, List.flatMap_singleton, hF, ih,
        hdigit (BitVec.ofNat 6 (62 - m)), Nat.succ_mul]
  rw [fixedTrace_eq_append, hF, hF, hdigits]

/-- The requests of one kind in a list of events. -/
def requests (q : PauReq) (l : List Event) : Nat :=
  (l.map fun e => e.pau.count q).sum

theorem requests_append (q : PauReq) (l l' : List Event) : requests q (l ++ l') = requests q l + requests q l' := by
  simp [requests]

theorem extractLsb'_op_uopWord (j : BitVec 2) (idx : BitVec 6) (op : BitVec 4) :
    (uopWord j idx op).extractLsb' 0 4 = op := by
  rw [uopWord, BitVec.extractLsb'_append_eq_right]

/-- The uops of one code in a list of events. -/
def uopsWithCode (op : BitVec 4) (l : List Event) : Nat :=
  l.countP fun e => e.word.extractLsb' 0 4 == op

theorem uopsWithCode_digitEvents (op : BitVec 4) (i : BitVec 6) :
    uopsWithCode op (digitEvents i) = uopsWithCode op (digitEvents 0) := by
  simp only [uopsWithCode, digitEvents, List.countP_cons, extractLsb'_op_uopWord]

/-- Settles O32: each count adds up over the parts of the fixed trace; the setup, one digit and FIN are evaluated. -/
theorem fixedTraceCounts : Obligations.FixedTraceCounts := by
  have hpau (q : PauReq) := count_fixedTrace (requests_append q) (fun _ => rfl)
  have hop (op : BitVec 4) := count_fixedTrace (F := uopsWithCode op) (fun _ _ => List.countP_append)
    (uopsWithCode_digitEvents op)
  exact ⟨by simp [fixedTrace_eq_map], hpau .add, hpau .dbl, hpau .c2p, hpau .c2e, hpau .e2c, hpau .feNeg, hop 6, hop 1⟩

end Sys2Proof.Machine
end

section
/-! The events of a running operation (45_sequencer R183, R184), and what a host access leaves as it is (R189). -/

namespace Sys2Proof.Machine

/-! ### Host accesses -/

/-- No access writes a working register, emits an event or changes the turns to come (10_state R29 to R34). -/
theorem HostEffect.keeps_working {s u : State} (h : HostEffect s u) :
    u.E = s.E ∧ u.TBL = s.TBL ∧ u.R = s.R ∧ u.S = s.S ∧ u.H = s.H ∧ u.C = s.C ∧ u.trace = s.trace ∧
      u.turns = s.turns := by
  cases h with
  | start => obtain ⟨-, h⟩ | ⟨-, -, h⟩ | ⟨-, -, h⟩ := start_cases s <;> simp [h]
  | _ => exact ⟨rfl, rfl, rfl, rfl, rfl, rfl, rfl, rfl⟩

/-- Settles O37: no effect of an access writes a working register, and on a running block none writes a snapshot. -/
theorem hostAccessLeavesTheInternals : Obligations.HostAccessLeavesTheInternals := by
  intro s a
  obtain ⟨r, u, hu, ht⟩ := hostTurn_effect a s
  obtain ⟨hE, hTBL, hR, hS, hH, hC, htrace, hturns⟩ := hu.keeps_working
  exact ⟨_, ht, hE, hTBL, hR, hS, hH, hC, hu.result, htrace, hturns, hu.of_busy⟩

/-- What an access leaves as it is on a running block, said of its turn. -/
theorem hostTurn_of_busy {s t : State} {a : Access} (hb : s.status.busy = true) (ht : hostTurn a s = .next t) :
    sameInternals s t ∧ t.status.busy = true ∧ t.trace = s.trace := by
  obtain ⟨r, u, hu, rfl⟩ := hostTurn_cases ht
  obtain ⟨hsame, hub⟩ := hu.of_busy hb
  obtain ⟨-, -, -, -, -, -, htrace, -⟩ := hu.keeps_working
  exact ⟨hsame, hub, htrace⟩

/-! ### The events so far -/

/-- The trace is `tr`, from before the operation, and the first `upc` events of the fixed trace. -/
def State.TraceFrom (tr : List Event) (s : State) : Prop :=
  s.trace = tr ++ fixedTrace.take s.upc.toNat

section
variable {s t : State} {tr : List Event}

theorem hostTurn_traceFrom {a : Access} (hb : s.status.busy = true) (h : s.TraceFrom tr)
    (ht : hostTurn a s = .next t) : t.TraceFrom tr ∧ t.status.busy = true := by
  obtain ⟨⟨-, -, -, -, -, -, -, -, hu⟩, htb, htrace⟩ := hostTurn_of_busy hb ht
  refine ⟨?_, htb⟩
  rw [State.TraceFrom, htrace, ← hu]
  exact h

/-- A running sequencer's turn appends the event of its position; FIN's, at the last one, completes the fixed trace. -/
theorem sequencerTurn_traceFrom (hinv : s.Inv) (hb : s.status.busy = true) (h : s.TraceFrom tr)
    (ht : sequencerTurn s = .next t) :
    (t.status.busy = true → t.TraceFrom tr) ∧ (t.status.busy = false → t.trace = tr ++ fixedTrace) := by
  have hlast := hinv.upc_in_range hb
  obtain ⟨i, hp, hrun⟩ := exists_uop_with_event_at hlast
  obtain ⟨hseq, htrace⟩ := hrun s hb rfl
  cases hseq.symm.trans ht
  have hnext : (uopNext i s).trace = tr ++ fixedTrace.take (s.upc.toNat + 1) := by
    rw [htrace, h, take_succ_fixedTrace hlast, List.append_assoc]
  by_cases hf : i = .fin
  · have hu : s.upc.toNat = 718 := hp.fin_iff_last.mp hf
    rw [hu, take_all_fixedTrace] at hnext
    refine ⟨fun htb => ?_, fun _ => hnext⟩
    rw [hf, uopNext_fin] at htb
    cases htb
  · rw [← hp.toNat_upc_uopNext hf] at hnext
    refine ⟨fun _ => hnext, fun htb => ?_⟩
    obtain ⟨E, TBL, R, S, H, C, e, hi, -⟩ := uopNext_of_ne_fin hp.isUop hf s
    rw [hi] at htb
    exact absurd (hb.symm.trans htb) Bool.false_ne_true.symm

/-- Every step of a running operation but a reset keeps its events on the fixed trace, and the one that ends it leaves
the whole fixed trace. -/
theorem step_traceFrom (hinv : s.Inv) (hb : s.status.busy = true) (hno : ∀ l rest, s.turns ≠ .reset l :: rest)
    (h : s.TraceFrom tr) (hstep : step s = .next t) :
    (t.status.busy = true → t.TraceFrom tr) ∧ (t.status.busy = false → t.trace = tr ++ fixedTrace) := by
  have hinv' (rest : List Turn) : ({ s with turns := rest } : State).Inv := hinv.congr rfl rfl rfl rfl
  obtain ⟨l, rest, hreset, -⟩ | ⟨-, ⟨a, rest, -, ht⟩ | ⟨rest, -, ht⟩ | ⟨-, ht⟩⟩ := step_cases hstep
  · exact absurd hreset (hno l rest)
  · obtain ⟨htr, htb⟩ := hostTurn_traceFrom (s := { s with turns := rest }) hb h ht
    exact ⟨fun _ => htr, fun hidle => absurd (hidle.symm.trans htb) Bool.false_ne_true⟩
  · exact sequencerTurn_traceFrom (hinv' rest) hb h ht
  · exact sequencerTurn_traceFrom hinv hb h ht

/-- A step after which an idle block runs is an accepted START: the operation is at its first uop. -/
theorem upc_of_step_to_busy (hb : s.status.busy = false) (htb : t.status.busy = true) (hstep : step s = .next t) :
    t.upc = 0 := by
  obtain ⟨l, rest, -, rfl⟩ | ⟨-, ⟨a, rest, -, ht⟩ | ⟨rest, -, ht⟩ | ⟨-, ht⟩⟩ := step_cases hstep
  · cases htb
  · obtain ⟨r, u, hu, rfl⟩ := hostTurn_cases ht
    rw [hu.eq_accept hb htb]
    rfl
  · cases (sequencerTurn_of_idle (s := { s with turns := rest }) hb).symm.trans ht
    exact absurd (hb.symm.trans htb) Bool.false_ne_true
  · cases (sequencerTurn_of_idle hb).symm.trans ht
    exact absurd (hb.symm.trans htb) Bool.false_ne_true

end

/-- Settles O54: an idle block runs only from an accepted START, with no event yet; a running one keeps its events on
the fixed trace. -/
theorem stepKeepsTheTraceOnSchedule : Obligations.StepKeepsTheTraceOnSchedule := by
  intro s t hinv h hstep
  cases hb : s.status.busy
  · refine ⟨fun htb => ?_, nofun⟩
    rw [upc_of_step_to_busy hb htb hstep]
    exact List.nil_suffix
  · obtain ⟨tr, htr⟩ := h hb
    have hnext (hno) := step_traceFrom hinv hb hno htr.symm hstep
    refine ⟨fun htb => ?_, fun _ htb hno => ⟨tr, ((hnext hno).2 htb).symm⟩⟩
    have hno (l rest) (hreset : s.turns = .reset l :: rest) : False := by
      cases (step_of_reset hreset).symm.trans hstep
      cases htb
    exact ⟨tr, ((hnext hno).1 htb).symm⟩

end Sys2Proof.Machine
end

section
/-! Whole operations (45_sequencer R184, R186 to R191): what a START leads to, with no turn listed after it, and in
every interleaving of the operation's sequencer turns with host accesses. -/

namespace Sys2Proof.Machine

/-! ### START -/

theorem State.Inv.errcode_le_one {s : State} (h : s.Inv) : s.status.errcode.toNat ≤ 1 := by
  rw [h.errcode_of_err]
  split <;> decide

/-- The entry check looks at bit 255 of the scalar (46_host_interface R204). -/
theorem getWord_seven_bit31_eq_decide (v : BitVec 256) : (getWord v 7).getLsbD 31 = decide (2 ^ 255 ≤ v.toNat) := by
  rw [getWord_seven_bit31, BitVec.msb_eq_decide]

/-- An accepted START (46_host_interface R205), by the state it leaves. -/
theorem start_of_valid {s : State} (hb : s.status.busy = false) (hs : s.scalar.toNat < 2 ^ 255) :
    start s = { s with status := ⟨true, false, false, 0⟩, snapS := s.scalar, snapA := s.base, upc := 0 } := by
  obtain ⟨hbusy, -⟩ | ⟨-, -, h⟩ | ⟨-, hbit, -⟩ := start_cases s
  · exact absurd (hb.symm.trans hbusy) Bool.false_ne_true
  · exact h
  · rw [getWord_seven_bit31_eq_decide, decide_eq_true_iff] at hbit
    omega

/-- A rejected START (46_host_interface R206), by the state it leaves. -/
theorem start_of_invalid {s : State} (hb : s.status.busy = false) (hs : 2 ^ 255 ≤ s.scalar.toNat) :
    start s = { s with status := ⟨false, true, true, 1⟩ } := by
  obtain ⟨hbusy, -⟩ | ⟨-, hbit, -⟩ | ⟨-, -, h⟩ := start_cases s
  · exact absurd (hb.symm.trans hbusy) Bool.false_ne_true
  · rw [getWord_seven_bit31_eq_decide, decide_eq_false_iff_not] at hbit
    exact absurd hs hbit
  · rw [h]
    simp only [raiseError, flagsOnScalarRange, clearForStart, hb]

/-- The step of `GO` is a START that is answered. -/
theorem step_go {s : State} {rest : List Turn} (hinv : s.Inv) (ht : s.turns = go :: rest) :
    step s = .next (respond .writeDone (start { s with turns := rest })) :=
  step_wr (t := .ctrl) (d := 1) ht hinv.errcode_le_one

/-- `s` after an accepted `GO`, with these turns to come. -/
def State.accepted (s : State) (rest : List Turn) : State :=
  { s with status := ⟨true, false, false, 0⟩, snapS := s.scalar, snapA := s.base, upc := 0,
           response := some .writeDone, turns := rest }

section
variable {s : State} {rest : List Turn} (hinv : s.Inv) (hb : s.status.busy = false)
  (hs : s.scalar.toNat < 2 ^ 255) (ht : s.turns = go :: rest)
include hinv hb hs ht

theorem step_go_accepted : step s = .next (s.accepted rest) := by
  rw [step_go hinv ht, start_of_valid (s := { s with turns := rest }) hb hs]
  rfl

theorem accepted_inv : (s.accepted rest).Inv :=
  stepKeepsTheLegalStates s _ hinv (step_go_accepted hinv hb hs ht)

end

/-! ### Runs with no turn listed -/

theorem runSteps_succ {n : Nat} {s t : State} (h : step s = .next t) : runSteps (n + 1) s = runSteps n t := by
  rw [runSteps, h]

/-- An idle block with no turn left answers its own state (log 5). -/
theorem runSteps_of_idle {s : State} (hb : s.status.busy = false) (he : s.status.errcode.toNat ≤ 1)
    (ht : s.turns = []) (n : Nat) : runSteps n s = .next s := by
  induction n with
  | zero => rfl
  | succ n ih =>
    have hstep : step s = .next s := by rw [step_of_no_turn ht he, sequencerTurn_of_idle hb]
    rw [runSteps_succ hstep, ih]

/-- Settles O43: the rejected START leaves an idle block with no turn to come. -/
theorem rejectedStartRunsNoUop : Obligations.RejectedStartRunsNoUop := by
  intro s n hinv hb hs ht
  rw [runSteps_succ (step_go hinv ht), start_of_invalid (s := { s with turns := [] }) hb hs]
  exact runSteps_of_idle rfl (by exact Nat.le_refl 1) rfl n

/-- Up to the last uop a run with no turn listed keeps STATUS. -/
theorem run_keeps_status {m n : Nat} (hmn : n + m ≤ 718) {s : State} (hs : s.RunsAt n) :
    ∃ t, runSteps m s = .next t ∧ t.RunsAt (n + m) ∧ t.status = s.status := by
  induction m generalizing n s with
  | zero => exact ⟨s, rfl, hs, rfl⟩
  | succ m ih =>
    obtain ⟨i, hp, hstep⟩ := exists_step_at (n := n) (by omega)
    have hf : i ≠ .fin := fun hi => by have := hp.fin_iff_last.mp hi; omega
    obtain ⟨E, TBL, R, S, H, C, e, hi, -⟩ := uopNext_of_ne_fin hp.isUop hf s
    obtain ⟨t, hrun, hat, hst⟩ := ih (n := n + 1) (by omega) (hs.next hp hf)
    rw [hi, logged_status] at hst
    rw [Nat.add_right_comm] at hat
    exact ⟨t, (runSteps_succ (hstep s hs)).trans hrun, hat, hst⟩

/-- Settles O42: GO starts the first uop, the 718 uops before FIN keep STATUS, and FIN ends BUSY with DONE. -/
theorem acceptedOperationEndsAfter719Uops : Obligations.AcceptedOperationEndsAfter719Uops := by
  intro s hinv hb hs ht
  have hgo := step_go_accepted hinv hb hs ht
  have h0 : (s.accepted []).RunsAt 0 := ⟨rfl, (accepted_inv hinv hb hs ht).errcode_le_one, rfl, rfl⟩
  refine ⟨fun n hpos hn => ?_, ?_⟩
  · obtain ⟨m, rfl⟩ := Nat.exists_eq_add_of_le' hpos
    obtain ⟨t, hrun, -, hst⟩ := run_keeps_status (m := m) (by omega) h0
    exact ⟨t, (runSteps_succ hgo).trans hrun, hst⟩
  · obtain ⟨t, hrun, hat, hst⟩ := run_keeps_status (m := 718) (by omega) h0
    obtain ⟨i, hp, hstep⟩ := exists_step_at (Nat.le_refl 718)
    obtain rfl : i = .fin := hp.fin_iff_last.mpr rfl
    refine ⟨uopNext .fin t, ?_, ?_, ?_⟩
    · calc runSteps 720 s
        _ = runSteps (718 + 1) (s.accepted []) := runSteps_succ hgo
        _ = runSteps 1 t := runSteps_add hrun
        _ = .next (uopNext .fin t) := runSteps_succ (hstep t hat)
    · rw [uopNext_fin, hst]
      rfl
    · rw [uopNext_fin]
      exact hat.turns

/-! ### Every interleaving with host accesses -/

/-- `P` holds along a running operation up to FIN, which makes `Q` true, and `Q` is a matter of what no host access
changes. -/
structure KeptToFin (P Q : State → Prop) : Prop where
  run : ∀ {s t : State}, s.Inv → s.status.busy = true → (∀ l rest, s.turns ≠ .reset l :: rest) → P s →
    step s = .next t → (t.status.busy = true → P t) ∧ (t.status.busy = false → Q t)
  after : ∀ {s t : State}, t.trace = s.trace → t.result = s.result → Q s → Q t

/-- A host access takes its turn off the list and keeps the trace and RESULT, and on a running block the position. -/
theorem exists_step_of_host {s : State} {a : Access} {rest : List Turn} (hinv : s.Inv)
    (ht : s.turns = .host a :: rest) :
    ∃ t, step s = .next t ∧ t.Inv ∧ t.turns = rest ∧ t.trace = s.trace ∧ t.result = s.result ∧
      (s.status.busy = true → t.status.busy = true ∧ t.upc = s.upc) := by
  obtain ⟨t, hturn, -, -, -, -, -, -, hresult, htrace, hturns, hbusy⟩ :=
    hostAccessLeavesTheInternals { s with turns := rest } a
  have hstep : step s = .next t := (step_of_host ht hinv.errcode_le_one).trans hturn
  refine ⟨t, hstep, stepKeepsTheLegalStates s t hinv hstep, hturns, htrace, hresult, fun hb => ?_⟩
  obtain ⟨⟨-, -, -, -, -, -, -, -, hu⟩, htb⟩ := hbusy hb
  exact ⟨htb, hu.symm⟩

/-- A sequencer turn of a running block takes it to the next position, and from the last one out of BUSY. -/
theorem exists_step_of_sequencer {s : State} {rest : List Turn} (hinv : s.Inv) (hb : s.status.busy = true)
    (ht : s.turns = .sequencer :: rest) :
    ∃ t, step s = .next t ∧ t.Inv ∧ t.turns = rest ∧
      ((s.upc.toNat = 718 ∧ t.status.busy = false) ∨ (t.status.busy = true ∧ t.upc.toNat = s.upc.toNat + 1)) := by
  obtain ⟨i, hp, hrun⟩ := exists_uop_at (hinv.upc_in_range hb)
  have hstep : step s = .next (uopNext i { s with turns := rest }) :=
    (step_of_sequencer ht hinv.errcode_le_one).trans (hrun _ hb rfl)
  obtain ⟨-, -, -, -, hturns⟩ := uopNext_keeps_inputs hp.isUop { s with turns := rest }
  refine ⟨_, hstep, stepKeepsTheLegalStates s _ hinv hstep, hturns, ?_⟩
  by_cases hf : i = .fin
  · exact .inl ⟨hp.fin_iff_last.mp hf, by rw [hf, uopNext_fin]; rfl⟩
  · obtain ⟨E, TBL, R, S, H, C, e, hi, -⟩ := uopNext_of_ne_fin hp.isUop hf { s with turns := rest }
    rw [hi]
    exact .inr ⟨hb, hp.toNat_upc_succ⟩

section
variable {P Q : State → Prop} (K : KeptToFin P Q) {l rest : List Turn}
include K

theorem KeptToFin.run_after_fin (hno : ∀ t ∈ l, t.isReset = false) (hseq : l.countP Turn.isSequencer = 0) {s : State}
    (hinv : s.Inv) (ht : s.turns = l ++ rest) (h : Q s) :
    ∃ t, runSteps l.length s = .next t ∧ Q t ∧ t.turns = rest := by
  induction l generalizing s with
  | nil => exact ⟨s, rfl, h, ht⟩
  | cons turn l ih =>
    obtain ⟨hturn, hrest⟩ := List.forall_mem_cons.mp hno
    cases turn with
    | host a =>
      obtain ⟨u, hstep, huinv, hu, htrace, hresult, -⟩ := exists_step_of_host hinv ht
      obtain ⟨t, hrun, hQ, htt⟩ := ih hrest hseq huinv hu (K.after htrace hresult h)
      exact ⟨t, (runSteps_succ hstep).trans hrun, hQ, htt⟩
    | sequencer => simp [Turn.isSequencer] at hseq
    | reset lost => cases hturn

/-- A running operation whose remaining sequencer turns are all listed, with host accesses in any places between them
and after them, reaches FIN within the list. -/
theorem KeptToFin.run_to_fin (hno : ∀ t ∈ l, t.isReset = false) {s : State} (hinv : s.Inv)
    (hb : s.status.busy = true) (hseq : s.upc.toNat + l.countP Turn.isSequencer = 719) (ht : s.turns = l ++ rest)
    (h : P s) : ∃ t, runSteps l.length s = .next t ∧ Q t ∧ t.turns = rest := by
  induction l generalizing s with
  | nil =>
    have := hinv.upc_in_range hb
    rw [List.countP_nil] at hseq
    omega
  | cons turn l ih =>
    obtain ⟨hturn, hrest⟩ := List.forall_mem_cons.mp hno
    cases turn with
    | host a =>
      obtain ⟨u, hstep, huinv, hu, -, -, hbusy⟩ := exists_step_of_host hinv ht
      obtain ⟨hub, hupc⟩ := hbusy hb
      have hP := (K.run hinv hb (by simp [ht]) h hstep).1 hub
      obtain ⟨t, hrun, hQ, htt⟩ := ih hrest huinv hub (hupc ▸ hseq) hu hP
      exact ⟨t, (runSteps_succ hstep).trans hrun, hQ, htt⟩
    | sequencer =>
      rw [List.countP_cons_of_pos rfl] at hseq
      obtain ⟨u, hstep, huinv, hu, ⟨hlast, hub⟩ | ⟨hub, hupc⟩⟩ := exists_step_of_sequencer hinv hb ht
      · have hQ := (K.run hinv hb (by simp [ht]) h hstep).2 hub
        obtain ⟨t, hrun, hQ, htt⟩ := K.run_after_fin hrest (by omega) huinv hu hQ
        exact ⟨t, (runSteps_succ hstep).trans hrun, hQ, htt⟩
      · have hP := (K.run hinv hb (by simp [ht]) h hstep).1 hub
        obtain ⟨t, hrun, hQ, htt⟩ := ih hrest huinv hub (by omega) hu hP
        exact ⟨t, (runSteps_succ hstep).trans hrun, hQ, htt⟩
    | reset lost => cases hturn

/-- What is kept to FIN holds at the end of every interleaving of a whole operation with host accesses. -/
theorem KeptToFin.run_operation {s : State} (hinv : s.Inv) (hb : s.status.busy = false)
    (hs : s.scalar.toNat < 2 ^ 255) (hl : operationTurns l) (ht : s.turns = go :: (l ++ rest))
    (h : P (s.accepted (l ++ rest))) : ∃ t, runSteps (l.length + 1) s = .next t ∧ Q t ∧ t.turns = rest := by
  obtain ⟨hno, hcount⟩ := hl
  have hseq : (0 : BitVec 10).toNat + l.countP Turn.isSequencer = 719 := by rw [hcount]; rfl
  obtain ⟨t, hrun, hQ, htt⟩ := K.run_to_fin hno (accepted_inv hinv hb hs ht) rfl hseq rfl h
  exact ⟨t, (runSteps_succ (step_go_accepted hinv hb hs ht)).trans hrun, hQ, htt⟩

end

/-- The events of an operation stay on the fixed trace up to FIN, and no access after it adds one. -/
theorem traceFrom_keptToFin (tr : List Event) : KeptToFin (State.TraceFrom tr) fun t => t.trace = tr ++ fixedTrace where
  run hinv hb hno h hstep := step_traceFrom hinv hb hno h hstep
  after htrace _ h := htrace.trans h

/-- Settles O44: from the accept, with no event yet, the events stay on the fixed trace up to FIN. -/
theorem operationTraceIsFixed : Obligations.OperationTraceIsFixed := by
  intro s l rest hinv hb hs hl ht
  exact (traceFrom_keptToFin s.trace).run_operation hinv hb hs hl ht (by simp [State.TraceFrom, State.accepted])

/-! ### The result of an operation -/

theorem sequencerTurn_keeps_snapshots {s t : State} (ht : sequencerTurn s = .next t) :
    t.snapS = s.snapS ∧ t.snapA = s.snapA := by
  obtain ⟨-, rfl⟩ | ⟨-, i, hp, rfl⟩ := sequencerTurn_cases ht
  · exact ⟨rfl, rfl⟩
  · obtain ⟨-, -, hS, hA, -⟩ := uopNext_keeps_inputs hp.isUop s
    exact ⟨hS, hA⟩

/-- No step of a running operation but a reset writes the snapshots (10_state R27, R28). -/
theorem step_keeps_snapshots {s t : State} (hb : s.status.busy = true) (hno : ∀ l rest, s.turns ≠ .reset l :: rest)
    (hstep : step s = .next t) : t.snapS = s.snapS ∧ t.snapA = s.snapA := by
  obtain ⟨l, rest, hreset, -⟩ | ⟨-, ⟨a, rest, -, ht⟩ | ⟨rest, -, ht⟩ | ⟨-, ht⟩⟩ := step_cases hstep
  · exact absurd hreset (hno l rest)
  · obtain ⟨⟨hS, hA, -⟩, -⟩ := hostTurn_of_busy (s := { s with turns := rest }) hb ht
    exact ⟨hS.symm, hA.symm⟩
  · exact sequencerTurn_keeps_snapshots (s := { s with turns := rest }) ht
  · exact sequencerTurn_keeps_snapshots ht

/-- An operation on the scalar `a` and the base `A`, with what its registers denote. -/
structure State.MultipliesOn {G : Type} [AddCommGroup G] (D : Denotation G) (a : BitVec 256) (A : ExtPoint)
    (s : State) : Prop where
  multiples : s.OnMultiples D
  snapS     : s.snapS = a
  snapA     : s.snapA = A

/-- Under the laws the registers go on to denote their multiples up to FIN, and no access after it changes RESULT. -/
theorem multipliesOn_keptToFin {G : Type} [AddCommGroup G] {D : Denotation G} (L : PauLaws Config.pau D)
    (a : BitVec 256) (A : ExtPoint) :
    KeptToFin (State.MultipliesOn D a A) fun t => D.ext t.result = a.toNat • D.ext A where
  run {s t} hinv hb hno h hstep := by
    obtain ⟨hD, rfl, rfl⟩ := h
    obtain ⟨hS, hA⟩ := step_keeps_snapshots hb hno hstep
    have hidle (hi : s.status.busy = false) : D.okExt s.base := absurd (hi.symm.trans hb) Bool.false_ne_true
    obtain ⟨hnext, hfin⟩ := stepKeepsThePartialMultiple G D L s t hinv (fun _ => hD) hidle hstep
    exact ⟨fun htb => ⟨hnext htb, hS, hA⟩, fun htb => hfin hb htb hno⟩
  after _ hresult h := by rwa [hresult]

/-- Settles O45: from the accept, with the scalar and the base in the snapshots, up to FIN. -/
theorem resultIsTheScalarMultiple : Obligations.ResultIsTheScalarMultiple := by
  intro G _ D L s l rest hinv hb hs hA hl ht
  have hfirst : (s.accepted (l ++ rest)).MultipliesOn D s.scalar s.base := ⟨.of_first hA rfl, rfl, rfl⟩
  obtain ⟨t, hrun, hresult, -⟩ := (multipliesOn_keptToFin L s.scalar s.base).run_operation hinv hb hs hl ht hfirst
  exact ⟨t, hrun, hresult⟩

end Sys2Proof.Machine
end

section
/-! The host interface (46_host_interface R200 to R208): what a read of the window answers and what a write does. -/

namespace Sys2Proof.Machine

/-! ### The offsets of the registers (30_encoding R83) -/

/-- An aligned 32-bit write with all byte enables decodes to the write of what its offset names (30_encoding R82). -/
theorem decodeAccess_write (t : Target) (d : Word) :
    decodeAccess ⟨t.offset, 32, .write 0xF d⟩ = .ok (writeInstr t d) :=
  decodeHost_offset true t d

theorem toNat_offset_scalar (w : BitVec 3) : (Target.scalar w).offset.toNat = 0x040 + 4 * w.toNat := by
  revert w; decide

theorem toNat_offset_base (c : Coord) (w : BitVec 3) :
    (Target.base c w).offset.toNat = 0x080 + 0x20 * c.bits.toNat + 4 * w.toNat := by
  cases c <;> revert w <;> decide

theorem toNat_offset_res (c : Coord) (w : BitVec 3) :
    (Target.res c w).offset.toNat = 0x100 + 0x20 * c.bits.toNat + 4 * w.toNat := by
  cases c <;> revert w <;> decide

/-! ### Reads (R200) -/

/-- STATUS as a number, flag by flag (R200). -/
theorem statusWord_eq_ofNat (st : Status) :
    statusWord st =
      BitVec.ofNat 32 (st.busy.toNat + 2 * st.done.toNat + 4 * st.err.toNat + 16 * st.errcode.toNat) := by
  obtain ⟨busy, done, err, errcode⟩ := st
  revert busy done err errcode
  decide

/-- Settles O14: STATUS and the words of the points as numbers; every other read answers 0 as it stands. -/
theorem hostReadsComplete : Obligations.HostReadsComplete := by
  intro s
  have hstatus := congrArg (answerRead · s) (statusWord_eq_ofNat s.status)
  have hword (p : ExtPoint) (c : Coord) (w : BitVec 3) :=
    congrArg (answerRead · s) (getWord_eq_ofNat (getCoord p c) w)
  exact ⟨rfl, hstatus, fun _ => rfl, hword s.base, hword s.result, fun _ => rfl, fun _ => rfl, fun _ => rfl,
    fun _ => rfl, fun _ => rfl⟩

/-- The word of a point register that lies at an offset of its 128 bytes, which begin at `lo` (R200, 20_memory R62). -/
theorem ofNat_coordNumbered_at (p : ExtPoint) (c : Coord) (w : BitVec 3) {lo off : Nat} (hlo : lo % 0x20 = 0)
    (hoff : off = lo + 0x20 * c.bits.toNat + 4 * w.toNat) :
    BitVec.ofNat 32 ((coordNumbered p ((off - lo) / 0x20)).toNat / 2 ^ (8 * (off % 0x20)) % 2 ^ 32) =
      getPointWord p c w := by
  have hcoord : (off - lo) / 0x20 = c.bits.toNat := by omega
  have hbit : 8 * (off % 0x20) = 32 * w.toNat := by omega
  have htrunc (n : Nat) : BitVec.ofNat 32 (n % 2 ^ 32) = BitVec.ofNat 32 n := by
    rw [← BitVec.toNat_ofNat, BitVec.ofNat_toNat, BitVec.setWidth_eq]
  rw [hcoord, hbit, ← getCoord_eq_coordNumbered, htrunc, getPointWord, getWord_eq_ofNat]

theorem windowRead_base (s : State) (c : Coord) (w : BitVec 3) :
    BitVec.ofNat 32 (windowRead s (Target.base c w).offset.toNat) = getPointWord s.base c w := by
  have hoff := toNat_offset_base c w
  rw [windowRead, if_neg (by omega), if_pos (by omega)]
  exact ofNat_coordNumbered_at s.base c w (by decide) hoff

theorem windowRead_res (s : State) (c : Coord) (w : BitVec 3) :
    BitVec.ofNat 32 (windowRead s (Target.res c w).offset.toNat) = getPointWord s.result c w := by
  have hoff := toNat_offset_res c w
  rw [windowRead, if_neg (by omega), if_neg (by omega), if_pos (by omega)]
  exact ofNat_coordNumbered_at s.result c w (by decide) hoff

/-- Outside STATUS, BASE and RES the table of R200 gives 0. -/
theorem windowRead_eq_zero (s : State) {off : Nat} (h : off ≠ 0x004 ∧ (off < 0x080 ∨ 0x180 ≤ off)) :
    windowRead s off = 0 := by
  rw [windowRead, if_neg (by omega), if_neg (by omega), if_neg (by omega)]

/-- The read of a target answers the number that the table of R200 gives for the target's offset. -/
theorem exec_readInstr (t : Target) (s : State) :
    exec (readInstr t) s = answerRead (BitVec.ofNat 32 (windowRead s t.offset.toNat)) s := by
  cases t
  case status => exact congrArg (answerRead · s) (statusWord_eq_ofNat s.status)
  case base c w => rw [windowRead_base]; rfl
  case res c w => rw [windowRead_res]; rfl
  case ctrl => rw [windowRead_eq_zero s (by decide)]; rfl
  case scalar w | rsvd008 w | rsvd010 w | rsvd020 w | rsvd060 w | rsvd180 w =>
    rw [windowRead_eq_zero s (by revert w; decide)]; rfl

/-- Settles O13: an aligned offset is that of a target, and the step is the read of it. -/
theorem readReturnsTheWindowWord : Obligations.ReadReturnsTheWindowWord := by
  intro s off rest ht he hoff
  obtain ⟨t, rfl⟩ := exists_target_of_aligned hoff
  calc step s = exec (readInstr t) { s with turns := rest } := step_rd ht he
    _ = _ := exec_readInstr t _

/-! ### Writes that store their word (R201) -/

/-- A bit of a point register after one of its words is written. -/
theorem getLsbD_setPointWord (p : ExtPoint) (c e : Coord) (w : BitVec 3) (d : Word) (i : Nat) :
    (getCoord (setPointWord p c w d) e).getLsbD i =
      if e = c ∧ 32 * w.toNat ≤ i ∧ i < 32 * w.toNat + 32 then d.getLsbD (i - 32 * w.toNat)
      else (getCoord p e).getLsbD i := by
  rw [setPointWord]
  by_cases hc : e = c
  · subst hc
    simp only [getCoord_setCoord_same, getLsbD_setWord, true_and]
  · simp only [getCoord_setCoord_other p _ hc, hc, false_and, if_false]

/-- Settles O15: the offset names the register and its word, and the write of a word is known bit by bit. -/
theorem inputWriteStoresItsWordOnly : Obligations.InputWriteStoresItsWordOnly := by
  intro w d
  refine ⟨?_, fun c => ?_, fun s => ⟨⟨_, rfl, fun i _ => getLsbD_setWord s.scalar w d i⟩, fun c =>
    ⟨_, rfl, fun e i _ => getLsbD_setPointWord s.base c e w d i⟩⟩⟩
  · rw [← toNat_offset_scalar, BitVec.ofNat_toNat, BitVec.setWidth_eq]
    exact decodeAccess_write (.scalar w) d
  · rw [← toNat_offset_base, BitVec.ofNat_toNat, BitVec.setWidth_eq]
    exact decodeAccess_write (.base c w) d

/-! ### Writes that are ignored (R202, R203) -/

/-- The write of a RES or reserved target only answers (R202). -/
theorem exec_writeInstr_ignored (t : Target) (d : Word) (s : State)
    (h : (0x008 ≤ t.offset.toNat ∧ t.offset.toNat < 0x040) ∨ (0x060 ≤ t.offset.toNat ∧ t.offset.toNat < 0x080) ∨
      0x100 ≤ t.offset.toNat) : exec (writeInstr t d) s = answerWrite s := by
  cases t
  case ctrl | status => exact absurd h (by decide)
  case scalar w =>
    rw [toNat_offset_scalar] at h
    omega
  case base c w =>
    rw [toNat_offset_base] at h
    omega
  all_goals rfl

/-- Settles O17: an aligned offset is that of a target; a CTRL write is told apart by DATA[0]. -/
theorem ignoredWritesChangeNothing : Obligations.IgnoredWritesChangeNothing := by
  refine ⟨fun off d haligned hoff => ?_, fun d hd => ?_, fun s d => ?_⟩
  · obtain ⟨t, rfl⟩ := exists_target_of_aligned haligned
    exact ⟨_, decodeAccess_write t d, fun s => exec_writeInstr_ignored t d s hoff⟩
  · exact ⟨_, (decodeAccess_write .ctrl d).trans (congrArg _ (if_neg (Bool.eq_false_iff.mp hd)))⟩
  · exact ⟨fun _ _ => rfl, fun _ => rfl, fun _ => rfl, fun _ => rfl, fun _ => rfl, fun _ => rfl, fun _ => rfl⟩

/-! ### START (R204 to R207) -/

/-- WR_CTRL_START is a START, whatever DATA[31:1] holds (R204). -/
theorem exec_wrCtrlStart (x : BitVec 31) (s : State) : exec (.wrCtrlStart x) s = answerWrite (start s) := rfl

/-- Settles O18: by BUSY and by the entry check. -/
theorem startIsIgnoredAcceptedOrRejected : Obligations.StartIsIgnoredAcceptedOrRejected := by
  refine ⟨fun d hd => ?_, fun s x => ⟨fun hb => ?_, fun hb hs => ?_, fun hb hs => ?_⟩⟩
  · exact ⟨_, (decodeAccess_write .ctrl d).trans (congrArg _ (if_pos hd))⟩
  · have hignored : start s = s := if_pos hb
    rw [exec_wrCtrlStart, hignored]
    rfl
  · rw [exec_wrCtrlStart, start_of_valid hb hs]
    rfl
  · rw [exec_wrCtrlStart, start_of_invalid hb hs]
    rfl

/-! ### STATUS (R208) -/

theorem exec_wrStatus (v : Word) (s : State) :
    exec (.wrStatus v) s = answerWrite { s with status := writeStatus s.status v } := rfl

/-- While BUSY = 1 a legal state has no flag for a STATUS write to clear (R208). -/
theorem writeStatus_of_busy {s : State} (h : s.Inv) (hb : s.status.busy = true) (v : Word) :
    writeStatus s.status v = s.status := by
  obtain ⟨hdone, herr⟩ := h.busy_alone hb
  have hcode : s.status.errcode = 0 := by rw [h.errcode_of_err, herr]; rfl
  calc writeStatus s.status v = ⟨s.status.busy, false, false, 0⟩ := by
        rw [writeStatus_eq, hdone, herr, hcode, ite_self, Bool.false_and, Bool.false_and]
    _ = ⟨s.status.busy, s.status.done, s.status.err, s.status.errcode⟩ := by rw [hdone, herr, hcode]

/-- Settles O19: flag by flag, and in a legal running state there is none to clear. -/
theorem statusWriteClearsByOnes : Obligations.StatusWriteClearsByOnes := by
  intro v
  refine ⟨decodeAccess_write .status v, fun s => ⟨?_, fun hinv hb => ?_⟩⟩
  · rw [exec_wrStatus, writeStatus_eq]
    rfl
  · rw [exec_wrStatus, writeStatus_of_busy hinv hb]
    rfl

end Sys2Proof.Machine
end

section
/-! No turn stops the machine in a legal state (60_exceptions R222). -/

namespace Sys2Proof.Machine

/-- The sequencer's turn of a legal state completes: `upc` names a uop of the schedule, and every one of them runs. -/
theorem sequencerTurn_completes {s : State} (h : s.Inv) : ∃ t, sequencerTurn s = .next t := by
  cases hb : s.status.busy with
  | false => exact ⟨s, sequencerTurn_of_idle hb⟩
  | true =>
    obtain ⟨i, -, hrun⟩ := exists_uop_at (h.upc_in_range hb)
    exact ⟨uopNext i s, hrun s hb rfl⟩

/-- Settles O36: by the next turn, whose agent's turn completes. -/
theorem legalStatesNeverStop : Obligations.LegalStatesNeverStop := by
  intro s h
  have hcode := h.errcode_le_one
  have hturns (rest : List Turn) : ({ s with turns := rest } : State).Inv := h.congr rfl rfl rfl rfl
  unfold State.Safe
  match ht : s.turns with
  | [] =>
    rw [step_of_no_turn ht hcode]
    exact sequencerTurn_completes h
  | .host a :: rest =>
    obtain ⟨r, u, -, hturn⟩ := hostTurn_effect a { s with turns := rest }
    exact ⟨respond r u, (step_of_host ht hcode).trans hturn⟩
  | .sequencer :: rest =>
    rw [step_of_sequencer ht hcode]
    exact sequencerTurn_completes (hturns rest)
  | .reset l :: rest => exact ⟨_, step_of_reset ht⟩

end Sys2Proof.Machine
end

section
/-! A host access and a uop other than FIN commute on a running block (60_exceptions R225): the access writes only what
the uop neither reads nor writes, and reads only what the uop does not write. -/

namespace Sys2Proof.Machine

/-- `s` with what an access can write while an operation runs taken from `u`: STATUS, SCALAR, BASE and the answer. -/
def State.withHostSideOf (s u : State) : State :=
  { s with status := u.status, scalar := u.scalar, base := u.base, response := u.response }

/-- Two states whose windows hold the same registers (10_state R23 to R26). -/
structure SameWindow (s t : State) : Prop where
  status : t.status = s.status
  scalar : t.scalar = s.scalar
  base   : t.base = s.base
  result : t.result = s.result

/-! ### The uop -/

/-- A uop other than FIN neither reads nor writes what an access can write: replacing that before it or after it is the
same. -/
theorem uopNext_withHostSideOf {i : Instr} (hu : isUop i = true) (hf : i ≠ .fin) (s u : State) :
    uopNext i (s.withHostSideOf u) = (uopNext i s).withHostSideOf u := by
  cases i
  case enc => rw [uopNext_enc, uopNext_enc]; rfl
  case tcache | tadd | c2e | te2c | sel | addi | c2p | dbl | add => rfl
  case fin => exact absurd rfl hf
  all_goals cases hu

/-- A uop other than FIN writes no register of the window. -/
theorem sameWindow_uopNext {i : Instr} (hu : isUop i = true) (hf : i ≠ .fin) (s : State) :
    SameWindow s (uopNext i s) := by
  obtain ⟨E, TBL, R, S, H, C, e, h, -⟩ := uopNext_of_ne_fin hu hf s
  rw [h]
  exact ⟨rfl, rfl, rfl, rfl⟩

/-! ### The access -/

/-- START is ignored while an operation runs (46_host_interface R207). -/
theorem start_of_busy {s : State} (hb : s.status.busy = true) : start s = s :=
  if_pos hb

/-- An access that only answers, as a bus error or an ignored write does, writes the same from either state. -/
theorem SameWindow.respond_eq {s t : State} (hw : SameWindow s t) (r : Response) :
    respond r t = t.withHostSideOf (respond r s) := by
  rw [State.withHostSideOf, respond_status, respond_scalar, respond_base, ← hw.status, ← hw.scalar, ← hw.base]
  rfl

/-- What a host instruction writes and answers on a running block depends on the registers of the window alone. -/
theorem exec_host_of_sameWindow {i : Instr} (hi : isUop i = false) {s t u : State} (hb : s.status.busy = true)
    (hw : SameWindow s t) (h : exec i s = .next u) : exec i t = .next (t.withHostSideOf u) := by
  cases i
  case wrCtrlStart x =>
    have hbt : t.status.busy = true := hw.status ▸ hb
    rw [exec_wrCtrlStart, start_of_busy hb] at h
    rw [exec_wrCtrlStart, start_of_busy hbt]
    cases h
    exact congrArg _ (hw.respond_eq .writeDone)
  case enc | tcache | tadd | c2e | te2c | sel | addi | c2p | dbl | add | fin => cases hi
  all_goals
    obtain ⟨hstatus, hscalar, hbase, hresult⟩ := hw
    cases t
    cases hstatus; cases hscalar; cases hbase; cases hresult; cases h
    rfl

theorem hostTurn_of_sameWindow {a : Access} {s t u : State} (hb : s.status.busy = true) (hw : SameWindow s t)
    (h : hostTurn a s = .next u) : hostTurn a t = .next (t.withHostSideOf u) := by
  cases hd : decodeAccess a with
  | ok i =>
    rw [hostTurn_of_decoded hd] at h ⊢
    exact exec_host_of_sameWindow (isUop_of_decodeAccess hd) hb hw h
  | reject why =>
    rw [hostTurn_of_rejected hd] at h ⊢
    cases h
    exact congrArg _ (hw.respond_eq (.busError a.off))

/-- An access on a running block changes what it can write, and nothing else. -/
theorem hostTurn_eq_withHostSideOf {a : Access} {s u : State} (hb : s.status.busy = true)
    (h : hostTurn a s = .next u) : u = s.withHostSideOf u := by
  have hself := hostTurn_of_sameWindow hb ⟨rfl, rfl, rfl, rfl⟩ h
  rw [h] at hself
  exact Host.Outcome.next.inj hself

/-! ### Either order -/

/-- Settles O41: in either order the state is that of the uop, with what the access writes taken from its own turn. -/
theorem accessAndUopCommuteBeforeFin : Obligations.AccessAndUopCommuteBeforeFin := by
  intro s t u a hb hn ht hu
  obtain ⟨i, hp, hrun⟩ := exists_uop_at (n := s.upc.toNat) (by omega)
  have hf : i ≠ .fin := fun hi => by have := hp.fin_iff_last.mp hi; omega
  obtain rfl : t = uopNext i s := by
    rw [hrun s hb rfl] at ht
    exact (Host.Outcome.next.inj ht).symm
  refine ⟨(uopNext i s).withHostSideOf u, hostTurn_of_sameWindow hb (sameWindow_uopNext hp.isUop hf s) hu, ?_⟩
  obtain ⟨⟨-, -, -, -, -, -, -, -, hupc⟩, hub, -⟩ := hostTurn_of_busy hb hu
  calc sequencerTurn u = .next (uopNext i u) := hrun u hub (by rw [← hupc])
    _ = .next (uopNext i (s.withHostSideOf u)) := by rw [← hostTurn_eq_withHostSideOf hb hu]
    _ = .next ((uopNext i s).withHostSideOf u) := by rw [uopNext_withHostSideOf hp.isUop hf]

end Sys2Proof.Machine
end

section
/-! Reset and hazards (70_reset R240, R241, R250), and the reserved error codes (93 U9). -/

namespace Sys2Proof.Machine

/-! ### Reset -/

/-- Settles O10: the step is the reset input, whatever the turn's access is. -/
theorem resetTurnGivesTheResetState : Obligations.ResetTurnGivesTheResetState := by
  intro s lost rest ht
  refine ⟨resetInput { s with turns := rest }, step_of_reset ht, ?_⟩
  simp [State.reset, Status.reset, zeroExt]

/-! ### Reserved error codes -/

theorem checkErrcode_reserved {s : State} (h : 2 ≤ s.status.errcode.toNat) (o : Outcome) :
    checkErrcode s o = .fault (.reservedErrcode s.status.errcode) :=
  if_neg (Nat.not_le_of_lt h)

/-- But for a reset, every step is an outcome that passes the check of the ERRCODE first (log 13). -/
theorem step_reset_or_checked (s : State) :
    (∃ l rest, s.turns = .reset l :: rest) ∨ ∃ o, step s = checkErrcode s o := by
  unfold step nextTurn
  match s.turns with
  | .reset l :: rest => exact .inl ⟨l, rest, rfl⟩
  | .host _ :: _ | .sequencer :: _ | [] => exact .inr ⟨_, rfl⟩

/-- Settles O12: a step that is no reset has its state's ERRCODE checked first. -/
theorem reservedErrcodeIsAFault : Obligations.ReservedErrcodeIsAFault := by
  intro s hcode hreset
  obtain ⟨l, rest, ht⟩ | ⟨o, ho⟩ := step_reset_or_checked s
  · exact absurd ht (hreset l rest)
  · rw [ho, checkErrcode_reserved hcode]

/-! ### The cycles of an operation -/

/-- The latency kinds of a list of events, in order (70_reset R250). -/
def latKinds (l : List Event) : List LatKind :=
  l.filterMap fun e => latKind e.word

/-- `Σ LAT(ev)` (70_reset R250). -/
def latencySum (l : List Event) : Nat :=
  ((latKinds l).map Config.lat).sum

theorem cyclesOf_eq (l : List Event) : cyclesOf l = Config.tFixed + latencySum l := rfl

theorem latencySum_append (l l' : List Event) : latencySum (l ++ l') = latencySum l + latencySum l' := by
  simp [latencySum, latKinds]

/-- ENC, TCACHE, the three uops of each of the seven table entries, SEL 63 and ADDI (45_sequencer R181). -/
theorem latKinds_setupEvents :
    latKinds setupEvents = [.enc, .e2c] ++ (List.replicate 7 [.add, .c2e, .e2c]).flatten ++ [.sel, .add] := by
  decide

/-- Four doublings, C2E, SEL and ADD (44_evaluator R166). -/
theorem latKinds_digitEvents (i : BitVec 6) :
    latKinds (digitEvents i) = (List.replicate 4 [.c2p, .dbl]).flatten ++ [.c2e, .sel, .add] := by
  revert i
  decide

/-- A block of kinds that is repeated `n` times takes `n` times its latencies. -/
theorem sum_lat_replicate_flatten (n : Nat) (l : List LatKind) :
    ((List.replicate n l).flatten.map Config.lat).sum = n * (l.map Config.lat).sum := by
  simp only [List.map_flatten, List.map_replicate, List.sum_flatten, List.sum_replicate, smul_eq_mul]

theorem latencySum_setupEvents :
    latencySum setupEvents = Config.lat .enc + 8 * Config.lat .e2c + 8 * Config.lat .add + 7 * Config.lat .c2e +
      Config.lat .sel := by
  simp only [latencySum, latKinds_setupEvents, List.map_append, List.sum_append, sum_lat_replicate_flatten,
    List.map_cons, List.map_nil, List.sum_cons, List.sum_nil]
  omega

theorem latencySum_digitEvents (i : BitVec 6) :
    latencySum (digitEvents i) = 4 * Config.lat .c2p + 4 * Config.lat .dbl + Config.lat .c2e + Config.lat .sel +
      Config.lat .add := by
  simp only [latencySum, latKinds_digitEvents, List.map_append, List.sum_append, sum_lat_replicate_flatten,
    List.map_cons, List.map_nil, List.sum_cons, List.sum_nil]
  omega

theorem latencySum_finEvent : latencySum [finEvent] = Config.lat .c2e := rfl

/-- Settles O33: the latencies add up over the parts of the fixed trace: the setup, 63 equal digits and FIN. -/
theorem operationCyclesSum : Obligations.OperationCyclesSum := by
  have hdigit (i : BitVec 6) : latencySum (digitEvents i) = latencySum (digitEvents 0) := by
    rw [latencySum_digitEvents, latencySum_digitEvents]
  have hsum := count_fixedTrace latencySum_append hdigit
  rw [latencySum_setupEvents, latencySum_digitEvents, latencySum_finEvent] at hsum
  rw [Obligations.OperationCyclesSum, cyclesOf_eq, hsum]
  omega

end Sys2Proof.Machine
end
